-- ==== Sys2Proof/Word.lean ====
section
/-! DEFINITION. The widths of the block's values (spec 00_scope.md rule R11, 30_encoding.md rule R90). -/

namespace Sys2Proof

/-- An 8-bit value: a Command, a Channel field, a RegisterByte, a status or a count (rule R11). -/
abbrev Byte := BitVec 8

/-- The 24-bit request word on the request port (rules R90, R109). -/
abbrev ReqWord := BitVec 24

/-- A 7-bit I2C address (rule R7). -/
abbrev Addr7 := BitVec 7

end Sys2Proof
end

