-- ==== Sys2Proof/Config.lean ====
section
/-! DEFINITION. What is fixed when the block is built (00_scope.md rules R7 to R10), and the free values of the model. -/

namespace Sys2Proof.Config

/-- `DEV_ADDR`, the device's fixed 7-bit I2C address (rule R7). -/
def devAddr : Addr7 := 0x48#7

/-- `READ_COUNT`, the number of bytes a read cycle requests (rule R9). -/
def readCount : Byte := 0x01#8

/-- The two settings of the open parameter `VERIFY_AGAINST` (rule R10). -/
inductive VerifyAgainst where
  /-- The verify read is compared with the data byte as the host presented it (the default). -/
  | requested
  /-- The verify read is compared with the data byte after the saturation of rule R121. -/
  | saturated
deriving DecidableEq, Repr

/-- The open build-time parameters (rules R8, R10, R47). They are plain data, so that a statement holds for every
choice of them. DESIGN CHOICE (log entry 1), safe: the state carries them and no step changes them. -/
structure Params where
  /-- `REG_SEL0`, the register-select byte of channel 0. -/
  regSel0 : Byte
  /-- `REG_SEL1`, the register-select byte of channel 1. -/
  regSel1 : Byte
  /-- `VERIFY_AGAINST`. -/
  verifyAgainst : VerifyAgainst
deriving DecidableEq, Repr

/-- The condition rule R8 puts on the two register-select bytes. -/
abbrev Params.Distinct (p : Params) : Prop := p.regSel0 ≠ p.regSel1

/-- Free value (log entry 1): the `REG_SEL0` of the block as built. The spec gives no value (rule R8, U1). -/
opaque regSel0 : Byte

/-- Free value (log entry 1): how far `REG_SEL1` lies above `REG_SEL0`, less one, modulo 256. -/
opaque regSelGap : Fin 255

/-- `REG_SEL1` of the block as built: any byte but `REG_SEL0`, as rule R8 asks. -/
def regSel1 : Byte := regSel0 + BitVec.ofNat 8 (regSelGap.val + 1)

/-- The parameters of the block as built; `VERIFY_AGAINST` has the default of rule R10. -/
def params : Params := { regSel0 := regSel0, regSel1 := regSel1, verifyAgainst := .requested }

/-- Free value (rule R175, log entry 5): the transport's answer to the `n`-th primitive for which nothing else in the
state gives one, the unstated count of rule R80 (log entry 11), and the result of the reference device's `T_BEGIN`,
`T_WRITE` and `T_REQUEST`, which no rule states (rules R80, R173, log entry 27). -/
opaque transportAnswer : Nat → Byte

/-- Free value (rules R80, R231, R233, log entry 9): the byte a device register holds when it is uncertain. -/
opaque deviceByte : Nat → Byte

end Sys2Proof.Config
end

