-- ==== Sys2Proof/Syntax.lean ====
section
/-! DEFINITION. The requests of spec/opcode_table.json, and the raw fields of a request word (30_encoding.md rule R90). -/

namespace Sys2Proof

/-- The four fields of a request word, most significant first (rule R90). -/
structure Request where
  /-- `req[23:16]`. -/
  data : Byte
  /-- `req[15:8]`. -/
  ch : Byte
  /-- `req[7:3]`, reserved. -/
  rsv : BitVec 5
  /-- `req[2:0]`. -/
  op : BitVec 3
deriving DecidableEq, Repr

/-- The legal requests (rule R91), one constructor per row of the opcode table. A field that an operation ignores
(`ch` of ENC and DEC, `data` of RD, rule R96) is kept, because acceptance latches it (rule R150). -/
inductive Instr where
  /-- `ENC`: encode the Command `data` (rule R130). -/
  | enc (data ch : Byte)
  /-- `DEC`: decode the RegisterByte `data` (rule R131). -/
  | dec (data ch : Byte)
  /-- `WR`: write the Command `data` to channel `ch` (rule R155). -/
  | wr (data ch : Byte)
  /-- `WRV`: write the Command `data` to channel `ch`, then verify (rule R156). -/
  | wrv (data ch : Byte)
  /-- `RD`: read channel `ch` (rule R157). -/
  | rd (data ch : Byte)
deriving DecidableEq, Repr

end Sys2Proof
end

