-- ==== Sys2Proof/WellFormed.lean ====
section
/-! DEFINITION. Which requests are legal (30_encoding.md rules R92 and R96). -/

namespace Sys2Proof

/-- Rule R92: the reserved field is zero. -/
def Request.reservedZero (r : Request) : Bool := r.rsv == 0#5

/-- Rule R91: the operation code is one of the five of the table. -/
def Request.opDefined (r : Request) : Bool := r.op.toNat ≤ 4

/-- A legal request (rule R96): neither of the two grounds for ILLEGAL holds. The channel is no ground: an invalid
channel is a legal request that completes with INVALID_CHANNEL (rule R93). -/
def Request.wellFormed (r : Request) : Bool := r.reservedZero && r.opDefined

/-- The operation code of an instruction (rule R91). -/
def Instr.opcode : Instr → BitVec 3
  | .enc _ _ => 0b000#3
  | .dec _ _ => 0b001#3
  | .wr _ _ => 0b010#3
  | .wrv _ _ => 0b011#3
  | .rd _ _ => 0b100#3

/-- The `data` field of an instruction (rule R94). -/
def Instr.data : Instr → Byte
  | .enc d _ => d
  | .dec d _ => d
  | .wr d _ => d
  | .wrv d _ => d
  | .rd d _ => d

/-- The `ch` field of an instruction (rule R93). -/
def Instr.ch : Instr → Byte
  | .enc _ c => c
  | .dec _ c => c
  | .wr _ c => c
  | .wrv _ c => c
  | .rd _ c => c

/-- The four fields an instruction is presented with. -/
def Instr.request (i : Instr) : Request :=
  { data := i.data, ch := i.ch, rsv := 0#5, op := i.opcode }

/-- An instruction is well-formed when its request is legal. Every field of `Instr` has the width of its field in the
word, so every term passes; the check refuses only raw requests. -/
def Instr.wellFormed (i : Instr) : Bool := i.request.wellFormed

end Sys2Proof
end

