-- ==== Sys2Proof/Decode.lean ====
section
/-! DEFINITION. The request decoder (30_encoding.md rule R95) and the encoder (rules R90 and R91). -/

namespace Sys2Proof

/-- Why a request word is ILLEGAL (rule R96). -/
inductive Reject where
  /-- `req[7:3]` is not zero (rule R92). -/
  | reservedField
  /-- `req[2:0]` is `0b101`, `0b110` or `0b111` (rule R91). -/
  | reservedOp
deriving DecidableEq, Repr

/-- What the decoder answers: rule R95's five kinds as `legal`, and ILLEGAL with its ground. -/
inductive Decoded where
  | legal (i : Instr)
  | illegal (why : Reject)
deriving DecidableEq, Repr

/-- The fields of a request word, taken as they stand (rules R90, R110). -/
def Request.ofWord (w : ReqWord) : Request :=
  { data := w.extractLsb' 16 8, ch := w.extractLsb' 8 8, rsv := w.extractLsb' 3 5, op := w.extractLsb' 0 3 }

/-- The request word made of four fields: `dddddddd cccccccc rrrrr ooo` (rule R90). -/
def Request.toWord (r : Request) : ReqWord := r.data ++ r.ch ++ r.rsv ++ r.op

/-- The instruction an operation code stands for, if the table has one (rule R91). -/
def Instr.ofOp (op : BitVec 3) (data ch : Byte) : Option Instr :=
  match op.toNat with
  | 0 => some (.enc data ch)
  | 1 => some (.dec data ch)
  | 2 => some (.wr data ch)
  | 3 => some (.wrv data ch)
  | 4 => some (.rd data ch)
  | _ => none

/-- `decode_req` on the fields: the reserved field is looked at first (rule R95). -/
def Request.decode (r : Request) : Decoded :=
  if r.rsv = 0#5 then
    match Instr.ofOp r.op r.data r.ch with
    | some i => .legal i
    | none => .illegal .reservedOp
  else .illegal .reservedField

/-- `decode_req` (rule R95), total on the 2^24 words. -/
def decode (w : ReqWord) : Decoded := (Request.ofWord w).decode

/-- The request word of an instruction (rules R90, R91). -/
def encode (i : Instr) : ReqWord := i.request.toWord

/-- The request word whose bits the opcode table numbers `w`: bit 0 of `w` is `req[0]`, and every bit from `nbits` up is
zero. A request is one 24-bit word (rule R109). -/
def tableWord (nbits w : Nat) : ReqWord := BitVec.ofNat 24 (w % 2 ^ nbits)

/-- The instruction the decoder reads from the bits `w` of an opcode-table row. -/
def decodeTableWord (nbits w : Nat) : Option Instr :=
  match decode (tableWord nbits w) with
  | .legal i => some i
  | .illegal _ => none

end Sys2Proof
end

