-- ==== Sys2Proof/Machine/State.lean ====
section
/-! DEFINITION. The state of the machine: the block's registers (10_state.md rule R30), its build-time parameters, its
input ports, the transport it drives and the optional reference device (20_memory.md rule R80). All of it is plain data. -/

namespace Sys2Proof.Machine

open Sys2Proof.Config (Params)

/-- The 11 values of the register `state` (rule R32). -/
inductive FsmState where
  | idle
  | wBegin
  | wSel
  | wData
  | wEnd
  | rBegin
  | rSel
  | rEnd
  | rReq
  | rAvail
  | rRead
deriving DecidableEq, Repr

/-- The registers of the block, exactly those of rule R30's table, under the spec's names. One-bit registers are
`Bool`. -/
structure Block where
  /-- Control state (rule R32). -/
  state : FsmState
  /-- Operation code of the accepted request, 3 bits (rule R33). -/
  op_r : BitVec 3
  /-- Channel field of the accepted request (rule R34). -/
  ch_r : Byte
  /-- Data field of the accepted request (rule R35). -/
  data_r : Byte
  /-- The encoded data byte of a write cycle (rule R36). -/
  enc_r : Byte
  /-- The read cycle is the verify phase of a WRV (rule R37). -/
  vfy_r : Bool
  /-- Status of the most recent `T_END` (rule R38). -/
  status_r : Byte
  /-- Count of the most recent `T_AVAILABLE` (rule R39). -/
  navail_r : Byte
  /-- Byte of the most recent `T_READ` (rule R40). -/
  rd_r : Byte
  /-- Completion flag (rule R41). -/
  done : Bool
  /-- Success flag (rule R42). -/
  resp_ok : Bool
  /-- Value result (rule R43). -/
  resp_val : Byte
  /-- Error code, 3 bits (rules R44, R201). -/
  resp_err : BitVec 3
deriving DecidableEq, Repr

/-- The reset values of rule R30's table (rule R51). -/
def Block.reset : Block :=
  { state := .idle, op_r := 0#3, ch_r := 0#8, data_r := 0#8, enc_r := 0#8, vfy_r := false, status_r := 0#8,
    navail_r := 0#8, rd_r := 0#8, done := false, resp_ok := false, resp_val := 0#8, resp_err := 0#3 }

/-- The transport primitives (00_scope.md rule R16). -/
inductive Primitive where
  /-- `T_BEGIN(a7)`. -/
  | tBegin (a7 : Addr7)
  /-- `T_WRITE(b8)`. -/
  | tWrite (b8 : Byte)
  /-- `T_END(stop)`, answered by a status. -/
  | tEnd (stop : Bool)
  /-- `T_REQUEST(a7, n, stop)`. -/
  | tRequest (a7 : Addr7) (n : Byte) (stop : Bool)
  /-- `T_AVAILABLE()`, answered by a count. -/
  | tAvailable
  /-- `T_READ()`, answered by a byte. -/
  | tRead
deriving DecidableEq, Repr

/-- A completed primitive with the result `t_res` the transport gave it (30_encoding.md rule R99). -/
structure Issue where
  prim : Primitive
  res : Byte
  /-- The byte a `T_REQUEST` took from the bus into the transport's receive buffer (20_memory.md rule R64), where the
  surroundings show it: the reference device does, the general transport does not (log entry 30). -/
  taken : Option Byte := none
deriving DecidableEq, Repr

/-- One answer of the general transport (41_transport.md rule R175). -/
inductive Answer where
  /-- The primitive completes (`t_done = 1`) with this `t_res`. -/
  | complete (res : Byte)
  /-- The transport never completes the primitive (rule R177). -/
  | never
deriving DecidableEq, Repr

/-- One sample of the reset input `rst` (70_reset_and_hazards.md rules R230, R231). -/
inductive ResetSample where
  /-- `rst = 0` at this step. -/
  | released
  /-- `rst = 1` at this step; `carriedOut` says whether the transport carries out the primitive that was on the port,
  which rule R231 leaves open. -/
  | asserted (carriedOut : Bool)
deriving DecidableEq, Repr

/-- The reference device and the transport in front of it (20_memory.md rule R80). -/
structure RefDevice where
  /-- `DEV_REG[0]` and `DEV_REG[1]` as cells of the device register space, keyed by their register-select bytes
  (rules R18, R61). An existing register that no cell lists holds an uncertain byte: a draw (log entry 9). -/
  mem : List Host.Cell
  /-- The device's register pointer (rule R63). -/
  ptr : Byte
  /-- The transport's receive buffer, oldest byte first (rule R64). -/
  rx : List Byte
  /-- The bytes written within the open addressed transaction, if one is open (rule R16). -/
  txn : Option (List Byte)
  /-- The corrupting variant of rule R80: `T_READ` returns the byte with these bits flipped; zero is the plain device. -/
  corrupt : Byte
  /-- What other bus masters write before each of the block's coming transactions (rule R82): a list of bytes, each for
  the register of channel 0 (`false`) or 1 (`true`). Nothing once the list is used up. -/
  otherWrites : List (List (Bool × Byte))
deriving DecidableEq, Repr

/-- The transport as the block sees it (41_transport.md section 5). -/
structure Transport where
  /-- The general transport's coming answers; when they are used up each answer is the free value
  `Config.transportAnswer` (rule R175, log entry 5). -/
  answers : List Answer
  /-- The exclusive-use duty of rules R178 and R242 holds. -/
  exclusive : Bool
  /-- The transport drives `t_done = 1` with no primitive on its port (rule R219). -/
  strayDone : Bool
  /-- The model's own counter: which free value is drawn next. -/
  draws : Nat
  /-- The primitives completed so far, oldest first: what the transport has been asked (rule R76). -/
  issued : List Issue
deriving DecidableEq, Repr

/-- The whole machine. The block's own state is `blk` alone (rule R30); the rest is its surroundings. -/
structure State where
  /-- The block's registers. -/
  blk : Block
  /-- The build-time parameters (rule R47). -/
  params : Params
  /-- The coming samples of `rst`, one a step; released once they are used up (rule R230). -/
  rst : List ResetSample
  /-- The request words the host presents, one per acceptance (rule R243). -/
  requests : List ReqWord
  /-- The consumed I2C transport (rule R215). -/
  transport : Transport
  /-- The reference device in place of the unconstrained transport, or none (rule R80). -/
  device : Option RefDevice
deriving DecidableEq, Repr

/-- The machine right after reset (rules R51, R230): the block's registers as rule R30's table has them, no request
presented, the general transport with nothing fixed about its answers, and the host duties met. -/
def State.reset : State :=
  { blk := Block.reset
    params := Sys2Proof.Config.params
    rst := []
    requests := []
    transport := { answers := [], exclusive := true, strayDone := false, draws := 0, issued := [] }
    device := none }

/-- The model's stuck outcome. The block itself never faults (60_exceptions.md rule R219). -/
inductive Fault where
  /-- STUCK: the sequencer is in a non-IDLE state and the transport never completes that state's primitive (rules R177,
  R219). Raised by every step of a non-IDLE state. Safe: the block has no step there either. -/
  | stuckOnTransport
deriving DecidableEq, Repr

/-- Runs the spec gives no meaning to. -/
inductive Refusal where
  /-- An instruction whose meaning is not written. Raised by `exec` alone; no arm uses it. Safe. -/
  | notModelled (mnemonic : String)
  /-- `t_done = 1` while `state = IDLE` (rule R219, U11). Raised by a step in IDLE with `rst` released. Safe: the
  spec refuses the run. -/
  | completionWithoutPrimitive
  /-- Another client uses the transport during an operation (rules R178, R242, U10). Raised by a step of a non-IDLE
  state with `rst` released (log entries 14, 29). Safe: the run is outside the spec. -/
  | exclusiveUseBroken
  /-- A primitive sequence the reference device gives no meaning to (rule R80). Raised by a step of a non-IDLE state with
  the reference device in place and `rst` released (log entries 10, 29). Safe: the block never issues one from reset. -/
  | outsideReferenceDevice
deriving DecidableEq, Repr

end Sys2Proof.Machine
end

