-- ==== Sys2Proof/Machine/Operands.lean ====
section
/-! DEFINITION. The operand forms: signedness primitives (00_scope.md rule R14), channel validation (41_transport.md
rule R151) and the register-select byte (rule R169). -/

namespace Sys2Proof.Machine

open Sys2Proof.Config (Params)

/-- `sint8(v)`, the two's-complement value of a byte (rule R14). -/
def sint8 (v : Byte) : Int := v.toInt

/-- `byte8(i)`, the two's-complement byte of an integer in [-128, 127] (rule R14). -/
def byte8 (i : Int) : Byte := BitVec.ofInt 8 i

/-- `valid(ch)`: the whole channel field is `0x00` or `0x01` (rule R151). -/
def validChannel (ch : Byte) : Bool := ch == 0x00#8 || ch == 0x01#8

/-- `REG_SEL[c]` for channel 0 (`false`) or 1 (`true`) (rules R8, R32). -/
def registerOf (p : Params) : Bool → Byte
  | false => p.regSel0
  | true => p.regSel1

/-- `REG_SEL[ch[0]]`: bit 0 of a channel field chooses the register-select byte (rules R34, R169). -/
def selectByte (p : Params) (ch : Byte) : Byte := registerOf p (ch.getLsbD 0)

end Sys2Proof.Machine
end

