-- ==== Sys2Proof/Machine/Codec.lean ====
section
/-! DEFINITION. The combinational codec (40_codec.md rules R120 to R129). -/

namespace Sys2Proof.Machine

/-- `sat(c)`: the Command -128 becomes -127, every other Command stays (rule R121). -/
def Codec.sat (c : Byte) : Byte := if c = 0x80#8 then 0x81#8 else c

/-- The saturated integer value of a Command (rules R120, R121). -/
def Codec.saturated (c : Byte) : Int := if sint8 c = -128 then -127 else sint8 c

/-- The sign bit of an encoded value: 1 for a non-negative one (rule R122). -/
def Codec.signBit (i : Int) : Nat := if 0 ≤ i then 1 else 0

/-- The magnitude field of an encoded value: its absolute value masked to 7 bits (rule R123). -/
def Codec.magnitude (i : Int) : Nat := i.natAbs &&& 0x7F

/-- `encode(c)`: the RegisterByte of a Command (rule R120). -/
def Codec.encode (c : Byte) : Byte :=
  BitVec.ofNat 8 ((Codec.signBit (Codec.saturated c) <<< 7) ||| Codec.magnitude (Codec.saturated c))

/-- The sign field `b[7]` of a RegisterByte: set for a non-negative value (rule R100). -/
def Codec.signOf (b : Byte) : Bool := b.getLsbD 7

/-- The magnitude field `b[6:0]` of a RegisterByte, unsigned (rules R100, R125). -/
def Codec.magnitudeOf (b : Byte) : Nat := (b.extractLsb' 0 7).toNat

/-- `decode(b)`: the Command of a RegisterByte; the negation is done in integers (rules R124, R126). -/
def Codec.decode (b : Byte) : Byte :=
  match Codec.signOf b with
  | false => byte8 (-(Codec.magnitudeOf b : Int))
  | true => byte8 (Codec.magnitudeOf b : Int)

end Sys2Proof.Machine
end

