-- ==== Sys2Proof/Machine/Flags.lean ====
section
/-! DEFINITION. The completion flag, the response registers and the error codes (10_state.md rules R41 to R44,
60_exceptions.md rule R201). The block has no other flags (rule R46) and no traps: every error is reported through
`finish` (rules R200, R207). -/

namespace Sys2Proof.Machine

/-- The error causes of rule R201. -/
inductive ErrorCode where
  /-- NONE: a successful operation. -/
  | ok
  /-- INVALID_CHANNEL (rule R202). -/
  | invalidChannel
  /-- BUS_TRANSACTION_FAILURE (rule R203). -/
  | busTransactionFailure
  /-- READ_UNAVAILABLE (rule R204). -/
  | readUnavailable
  /-- VERIFY_MISMATCH (rule R205). -/
  | verifyMismatch
  /-- ILLEGAL_REQUEST (rule R206). -/
  | illegalRequest
deriving DecidableEq, Repr

/-- The 3-bit code of an error cause (rule R201). -/
def ErrorCode.code : ErrorCode → BitVec 3
  | .ok => 0#3
  | .invalidChannel => 1#3
  | .busTransactionFailure => 2#3
  | .readUnavailable => 3#3
  | .verifyMismatch => 4#3
  | .illegalRequest => 5#3

/-- The error sentinel, `byte8(-128)` (30_encoding.md rule R103). -/
def errorSentinel : Byte := 0x80#8

/-- `finish(ok, val, err)` (00_scope.md rule R17): the one way an operation ends, with or without an error. -/
def Block.finish (b : Block) (ok : Bool) (val : Byte) (err : ErrorCode) : Block :=
  { b with resp_ok := ok, resp_val := val, resp_err := err.code, done := true, state := .idle }

end Sys2Proof.Machine
end

