-- ==== Sys2Proof/Machine/Ops.lean ====
section
/-! DEFINITION. The register writes of the sequencer's steps: acceptance (41_transport.md rule R150), the write cycle
(rule R153), the read cycle (rule R154), the verify comparison (rule R159), and the primitive of each state (10_state.md
rule R32). The block has no trap to take and none to return from (60_exceptions.md rules R200, R210); `Block.finish` is
the shared operation that reports an error. -/

namespace Sys2Proof.Machine

open Sys2Proof.Config (Params)

/-- What every acceptance writes: the request's fields, `vfy_r <- 0` and `done <- 0` (rule R150). -/
def Block.latch (b : Block) (op : BitVec 3) (ch data : Byte) : Block :=
  { b with op_r := op, ch_r := ch, data_r := data, vfy_r := false, done := false }

/-- Acceptance of an ENC (rules R130, R150). -/
def Block.acceptEnc (b : Block) (data ch : Byte) : Block :=
  (b.latch 0b000#3 ch data).finish true (Codec.encode data) .ok

/-- Acceptance of a DEC (rules R131, R150). -/
def Block.acceptDec (b : Block) (data ch : Byte) : Block :=
  (b.latch 0b001#3 ch data).finish true (Codec.decode data) .ok

/-- Acceptance of a WR or WRV with operation code `op`: validation, then encoding (rules R150, R151, R152). -/
def Block.acceptWrite (b : Block) (op : BitVec 3) (data ch : Byte) : Block :=
  match validChannel ch with
  | false => (b.latch op ch data).finish false 0x00#8 .invalidChannel
  | true => { b.latch op ch data with enc_r := Codec.encode data, state := .wBegin }

/-- Acceptance of an RD (rules R150, R151, R152). -/
def Block.acceptRead (b : Block) (data ch : Byte) : Block :=
  match validChannel ch with
  | false => (b.latch 0b100#3 ch data).finish false errorSentinel .invalidChannel
  | true => { b.latch 0b100#3 ch data with state := .rBegin }

/-- Acceptance of an illegal request word: its fields are latched too (rules R150, R158). -/
def Block.acceptIllegal (b : Block) (r : Request) : Block :=
  (b.latch r.op r.ch r.data).finish false errorSentinel .illegalRequest

/-- The value a verify read is compared with (rules R10, R159). -/
def Block.verifyTarget (p : Params) (b : Block) : Byte :=
  match p.verifyAgainst with
  | .requested => b.data_r
  | .saturated => Codec.sat b.data_r

/-- `verify_done(x)`, with `none` for NO_BYTE, which is tested first (rule R159). -/
def Block.verifyDone (p : Params) (b : Block) : Option Byte → Block
  | none => b.finish false errorSentinel .readUnavailable
  | some x =>
    if x = b.verifyTarget p then b.finish true x .ok
    else b.finish false x .verifyMismatch

/-- The end of an RD's read cycle, with `none` for NO_BYTE (rules R154, R157). -/
def Block.plainReadDone (b : Block) : Option Byte → Block
  | none => b.finish false errorSentinel .readUnavailable
  | some x => b.finish true x .ok

/-- `read_done(x)` (rule R154). -/
def Block.readDone (p : Params) (b : Block) (x : Option Byte) : Block :=
  match b.vfy_r with
  | false => b.plainReadDone x
  | true => b.verifyDone p x

/-- The writes of the W_END step with status `s` (rule R153). -/
def Block.endWrite (b : Block) (s : Byte) : Block :=
  if s ≠ 0x00#8 then { b with status_r := s }.finish false 0x00#8 .busTransactionFailure
  else if b.op_r = 0b010#3 then { b with status_r := s }.finish true 0x00#8 .ok
  else { b with status_r := s, vfy_r := true, state := .rBegin }

/-- The writes of the R_AVAIL step with count `n` (rules R154, R167). -/
def Block.checkAvailable (p : Params) (b : Block) (n : Byte) : Block :=
  if n = 0x00#8 then { b with navail_r := n }.readDone p none
  else { b with navail_r := n, state := .rRead }

/-- The writes of the step of a non-IDLE state whose primitive completed with result `res` (rule R161). IDLE has no
such step. -/
def Block.transition (p : Params) (res : Byte) (b : Block) : Block :=
  match b.state with
  | .idle => b
  | .wBegin => { b with state := .wSel }
  | .wSel => { b with state := .wData }
  | .wData => { b with state := .wEnd }
  | .wEnd => b.endWrite res
  | .rBegin => { b with state := .rSel }
  | .rSel => { b with state := .rEnd }
  | .rEnd => { b with status_r := res, state := .rReq }
  | .rReq => { b with state := .rAvail }
  | .rAvail => b.checkAvailable p res
  | .rRead => { b with rd_r := res }.readDone p (some (Codec.decode res))

/-- The primitive a state issues (rule R32); IDLE issues none. -/
def Block.primitive (p : Params) (b : Block) : Option Primitive :=
  match b.state with
  | .idle => none
  | .wBegin => some (.tBegin Sys2Proof.Config.devAddr)
  | .wSel => some (.tWrite (selectByte p b.ch_r))
  | .wData => some (.tWrite b.enc_r)
  | .wEnd => some (.tEnd true)
  | .rBegin => some (.tBegin Sys2Proof.Config.devAddr)
  | .rSel => some (.tWrite (selectByte p b.ch_r))
  | .rEnd => some (.tEnd false)
  | .rReq => some (.tRequest Sys2Proof.Config.devAddr Sys2Proof.Config.readCount true)
  | .rAvail => some .tAvailable
  | .rRead => some .tRead

end Sys2Proof.Machine
end

