-- ==== Sys2Proof/Machine/Memory.lean ====
section
/-! DEFINITION. The device register space as a list of cells (20_memory.md rules R60, R61; 00_scope.md rule R18). It is
the only address space the block reaches, and it is keyed by the 8-bit register-select byte. The cells stand in strictly
rising order; a register that no cell lists holds no fixed byte (a draw), so no entry repeats what an unlisted address
reads as. -/

namespace Sys2Proof.Machine

/-- The cells from address `lo` up stand in strictly rising order, below 256. -/
def Memory.wfFrom : Nat → List Host.Cell → Bool
  | _, [] => true
  | lo, (a, _) :: rest => decide (lo ≤ a) && decide (a < 256) && Memory.wfFrom (a + 1) rest

/-- The canonical form: strictly rising 8-bit addresses. -/
def Memory.wf (m : List Host.Cell) : Bool := Memory.wfFrom 0 m

/-- `MemRead(addr, 1)` (rule R18): the byte of the register at `addr`, or none where it is a draw. -/
def memRead : List Host.Cell → Byte → Option Byte
  | [], _ => none
  | (k, v) :: rest, a => if k = a.toNat then some v else memRead rest a

/-- `MemWrite(addr, 1, v)` (rules R18, R69). -/
def memWrite : List Host.Cell → Byte → Byte → List Host.Cell
  | [], a, v => [(a.toNat, v)]
  | (k, x) :: rest, a, v =>
    if a.toNat < k then (a.toNat, v) :: (k, x) :: rest
    else if a.toNat = k then (k, v) :: rest
    else (k, x) :: memWrite rest a v

/-- The register at `addr` becomes uncertain: its value is a draw from now on. -/
def memForget : List Host.Cell → Byte → List Host.Cell
  | [], _ => []
  | (k, x) :: rest, a => if k = a.toNat then memForget rest a else (k, x) :: memForget rest a

end Sys2Proof.Machine
end

