-- ==== Sys2Proof/Machine/Device.lean ====
section
/-! DEFINITION. The reference device (20_memory.md rule R80), its corrupting variant, and other bus masters in front of it
(rule R82). -/

namespace Sys2Proof.Machine

open Sys2Proof.Config (Params)

/-- What the reference device answers to a primitive. -/
inductive DeviceReply where
  /-- It completes with this result and this next device; `drew` says whether a free value was used. -/
  | answers (res : Byte) (d : RefDevice) (drew : Bool)
  /-- Rule R80 gives the primitive no meaning here. -/
  | noMeaning
deriving DecidableEq, Repr

/-- The two registers that exist are those the two register-select bytes name (rules R61, R62). -/
def isRegister (p : Params) (r : Byte) : Bool := r == p.regSel0 || r == p.regSel1

/-- The device registers after some writes of other bus masters, the first of them first (rule R82). -/
def otherMasterWrites (p : Params) : List (Bool × Byte) → List Host.Cell → List Host.Cell
  | [], m => m
  | (channel, v) :: rest, m => otherMasterWrites p rest (memWrite m (registerOf p channel) v)

/-- What other bus masters do before the block's next transaction (rule R82). -/
def RefDevice.otherMaster (p : Params) (d : RefDevice) : RefDevice :=
  match d.otherWrites with
  | [] => d
  | now :: later => { d with otherWrites := later, mem := otherMasterWrites p now d.mem }

/-- The register at `r` becomes uncertain (rule R231). -/
def RefDevice.forget (d : RefDevice) (r : Byte) : RefDevice := { d with mem := memForget d.mem r }

/-- `T_BEGIN`: a new addressed write transaction is open; another master acted before it if it ever did (rule R82,
log entry 12). A transaction left open by a reset is discarded (log entry 10). No rule states a result, so it is a free
value (DESIGN CHOICE, log entry 27). -/
def RefDevice.begins (p : Params) (draws : Nat) (d : RefDevice) (a7 : Addr7) : DeviceReply :=
  if a7 = Sys2Proof.Config.devAddr then
    .answers (Sys2Proof.Config.transportAnswer draws) { d.otherMaster p with txn := some [] } true
  else .noMeaning

/-- `T_WRITE`: one more byte within the open transaction. No rule states a result, so it is a free value (DESIGN CHOICE,
log entry 27). -/
def RefDevice.writes (draws : Nat) (d : RefDevice) (b8 : Byte) : DeviceReply :=
  match d.txn with
  | some bytes => .answers (Sys2Proof.Config.transportAnswer draws) { d with txn := some (bytes ++ [b8]) } true
  | none => .noMeaning

/-- `T_END(1)`: the write transaction `r`, `b` performs `DEV_REG[c] <- b` and `ptr <- r`, with status 0. -/
def RefDevice.endsWrite (p : Params) (d : RefDevice) : DeviceReply :=
  match d.txn with
  | some [r, b] =>
    if isRegister p r then .answers 0x00#8 { d with mem := memWrite d.mem r b, ptr := r, txn := none } false
    else .noMeaning
  | _ => .noMeaning

/-- `T_END(0)`: the pointer transaction `r` performs `ptr <- r`, with status 0. -/
def RefDevice.endsPointer (d : RefDevice) : DeviceReply :=
  match d.txn with
  | some [r] => .answers 0x00#8 { d with ptr := r, txn := none } false
  | _ => .noMeaning

/-- `T_REQUEST(DEV_ADDR, 1, 1)`: the byte of the register pointed at goes to the receive buffer. An uncertain register is
drawn at this point and then keeps the drawn byte (log entry 9). No rule states a result, so it is a free value (DESIGN
CHOICE, log entry 27). An open transaction makes no difference (DESIGN CHOICE, log entry 28). -/
def RefDevice.requests (p : Params) (draws : Nat) (d : RefDevice) (a7 : Addr7) (n : Byte) (stop : Bool) : DeviceReply :=
  if a7 = Sys2Proof.Config.devAddr ∧ n = Sys2Proof.Config.readCount ∧ stop = true ∧ isRegister p d.ptr = true then
    match memRead d.mem d.ptr with
    | some b => .answers (Sys2Proof.Config.transportAnswer draws) { d with rx := d.rx ++ [b] } true
    | none =>
      .answers (Sys2Proof.Config.transportAnswer draws)
        { d with rx := d.rx ++ [Sys2Proof.Config.deviceByte draws],
                 mem := memWrite d.mem d.ptr (Sys2Proof.Config.deviceByte draws) } true
  else .noMeaning

/-- `T_AVAILABLE`: the number of unread bytes. A number above 255 has no 8-bit form, so its answer is a free value
(log entry 11). An open transaction makes no difference (DESIGN CHOICE, log entry 28). -/
def RefDevice.counts (draws : Nat) (d : RefDevice) : DeviceReply :=
  if d.rx.length < 256 then .answers (BitVec.ofNat 8 d.rx.length) d false
  else .answers (Sys2Proof.Config.transportAnswer draws) d true

/-- `T_READ`: the oldest unread byte, with the corrupting variant's bits flipped. An open transaction makes no
difference (DESIGN CHOICE, log entry 28). -/
def RefDevice.reads (d : RefDevice) : DeviceReply :=
  match d.rx with
  | b :: rest => .answers (b ^^^ d.corrupt) { d with rx := rest } false
  | [] => .noMeaning

/-- The reference device's answer to a primitive (rule R80). -/
def RefDevice.answer (p : Params) (draws : Nat) (d : RefDevice) : Primitive → DeviceReply
  | .tBegin a7 => d.begins p draws a7
  | .tWrite b8 => d.writes draws b8
  | .tEnd true => d.endsWrite p
  | .tEnd false => d.endsPointer
  | .tRequest a7 n stop => d.requests p draws a7 n stop
  | .tAvailable => d.counts draws
  | .tRead => d.reads

end Sys2Proof.Machine
end

