-- ==== Sys2Proof/Machine/Transport.lean ====
section
/-! DEFINITION. The consumed I2C transport: it completes one primitive at a time and answers it (41_transport.md rules R170
to R178). -/

namespace Sys2Proof.Machine

/-- What the transport does with a primitive on its port. -/
inductive Reply where
  /-- It completes it with this `t_res`; the machine's surroundings have moved on. -/
  | completes (res : Byte) (s : State)
  /-- It never completes it (rule R177). -/
  | never
  /-- The run is outside the spec. -/
  | refused (why : Refusal)
deriving DecidableEq, Repr

/-- The surroundings after a primitive completed: it is on record with its result and, where it shows, the byte it took
from the bus; the draw counter has moved if a free value was used. -/
def State.record (s : State) (prim : Primitive) (res : Byte) (taken : Option Byte) (drew : Bool) : State :=
  { s with transport := { s.transport with
      issued := s.transport.issued ++ [{ prim := prim, res := res, taken := taken }]
      draws := bif drew then s.transport.draws + 1 else s.transport.draws } }

/-- The general transport (rule R175): any answer, from the list of coming answers or, after that, a free value. -/
def generalReply (prim : Primitive) (s : State) : Reply :=
  match s.transport.answers with
  | .complete res :: rest =>
    .completes res ({ s with transport := { s.transport with answers := rest } }.record prim res none false)
  | .never :: _ => .never
  | [] =>
    .completes (Sys2Proof.Config.transportAnswer s.transport.draws)
      (s.record prim (Sys2Proof.Config.transportAnswer s.transport.draws) none true)

/-- The byte a primitive took from the bus, as the reference device `d` after it shows: that of a `T_REQUEST` is the
newest in the receive buffer (rule R80). -/
def RefDevice.taken (d : RefDevice) : Primitive → Option Byte
  | .tBegin _ => none
  | .tWrite _ => none
  | .tEnd _ => none
  | .tRequest _ _ _ => d.rx.getLast?
  | .tAvailable => none
  | .tRead => none

/-- The reference device in place of the general transport (rule R80). -/
def referenceReply (prim : Primitive) (d : RefDevice) (s : State) : Reply :=
  match d.answer s.params s.transport.draws prim with
  | .answers res d' drew => .completes res ({ s with device := some d' }.record prim res (d'.taken prim) drew)
  | .noMeaning => .refused .outsideReferenceDevice

/-- The transport is given a primitive (rules R160, R178). -/
def performPrimitive (prim : Primitive) (s : State) : Reply :=
  match s.transport.exclusive with
  | false => .refused .exclusiveUseBroken
  | true =>
    match s.device with
    | none => generalReply prim s
    | some d => referenceReply prim d s

end Sys2Proof.Machine
end

