-- ==== Sys2Proof/Machine/Sequencer.lean ====
section
/-! DEFINITION. The sequencer's steps (41_transport.md rule R160): the step of a non-IDLE state, the acceptance step, and
the wait in IDLE (60_exceptions.md rule R218). -/

namespace Sys2Proof.Machine

/-- The step of a non-IDLE state (rules R160, R161): its primitive is given to the transport, and the state's writes are
made when the transport completes it. In IDLE no primitive is issued and nothing changes. -/
def sequencer (s : State) : Host.Outcome State Fault Refusal :=
  match s.blk.primitive s.params with
  | none => .next s
  | some prim =>
    match performPrimitive prim s with
    | .completes res s' => .next { s' with blk := s.blk.transition s.params res }
    | .never => .fault .stuckOnTransport
    | .refused why => .refused why

/-- A step in IDLE (rule R219): a completion with no primitive issued makes the run meaningless; otherwise the step makes
the writes `act`. -/
def idleStep (act : State → State) (s : State) : Host.Outcome State Fault Refusal :=
  match s.transport.strayDone with
  | true => .refused .completionWithoutPrimitive
  | false => .next (act s)

/-- The acceptance step (rule R150): the request is consumed and the block makes the writes `act`. -/
def State.accept (act : Block → Block) (s : State) : State :=
  { s with blk := act s.blk, requests := s.requests.tail }

/-- The step with a request on the request port whose acceptance makes the writes `act`. In IDLE the request is accepted.
In any other state it waits, and the step is that of the operation in progress (30_encoding.md rule R97, rule R162). -/
def requestStep (act : Block → Block) (s : State) : Host.Outcome State Fault Refusal :=
  if s.blk.state = .idle then idleStep (State.accept act) s
  else sequencer s

/-- The step with no request on the request port: IDLE waits (rule R218), and an operation goes on. -/
def quietStep (s : State) : Host.Outcome State Fault Refusal :=
  if s.blk.state = .idle then idleStep id s
  else sequencer s

end Sys2Proof.Machine
end

