-- ==== Sys2Proof/Machine/BusRequests.lean ====
section
/-! DEFINITION. WR, WRV and RD (41_transport.md rules R155 to R157). Each meaning is the step the block takes with the
request on its request port: acceptance in IDLE, and in any other state the next step of the cycle in progress, which for
these three goes on over 4 to 10 primitives (rule R163). -/

namespace Sys2Proof.Machine

/-- WR (rule R155): validation and encoding at acceptance, then the write cycle. -/
def execWr (data ch : Byte) (s : State) : Host.Outcome State Fault Refusal :=
  requestStep (fun b => b.acceptWrite 0b010#3 data ch) s

/-- WRV (rule R156): as WR, and the read cycle follows a write whose status is 0. -/
def execWrv (data ch : Byte) (s : State) : Host.Outcome State Fault Refusal :=
  requestStep (fun b => b.acceptWrite 0b011#3 data ch) s

/-- RD (rule R157): validation at acceptance, then the read cycle. The data field is latched and otherwise ignored. -/
def execRd (data ch : Byte) (s : State) : Host.Outcome State Fault Refusal :=
  requestStep (fun b => b.acceptRead data ch) s

end Sys2Proof.Machine
end

