-- ==== Sys2Proof/Machine/CodecRequests.lean ====
section
/-! DEFINITION. ENC and DEC (40_codec.md rules R130, R131). Each meaning is the step the block takes with the request on
its request port. -/

namespace Sys2Proof.Machine

/-- ENC (rule R130): accepted in IDLE, and complete in that step. The channel is latched and otherwise ignored. -/
def execEnc (data ch : Byte) (s : State) : Host.Outcome State Fault Refusal :=
  requestStep (fun b => b.acceptEnc data ch) s

/-- DEC (rule R131): accepted in IDLE, and complete in that step. The channel is latched and otherwise ignored. -/
def execDec (data ch : Byte) (s : State) : Host.Outcome State Fault Refusal :=
  requestStep (fun b => b.acceptDec data ch) s

end Sys2Proof.Machine
end

