-- ==== Sys2Proof/Machine/Dispatch.lean ====
section
/-! DEFINITION. One arm per request of the opcode table. -/

namespace Sys2Proof.Machine

def exec (i : Instr) (s : State) : Host.Outcome State Fault Refusal :=
  match i with
  | .enc data ch => Sys2Proof.Machine.execEnc data ch s
  | .dec data ch => Sys2Proof.Machine.execDec data ch s
  | .wr data ch => Sys2Proof.Machine.execWr data ch s
  | .wrv data ch => Sys2Proof.Machine.execWrv data ch s
  | .rd data ch => Sys2Proof.Machine.execRd data ch s

end Sys2Proof.Machine
end

