-- ==== Sys2Proof/Machine/Reset.lean ====
section
/-! DEFINITION. The reset input (70_reset_and_hazards.md rules R230, R231, R233). -/

namespace Sys2Proof.Machine

/-- `rst = 1` at this step. -/
def State.rstAsserted (s : State) : Bool :=
  match s.rst with
  | .asserted _ :: _ => true
  | _ => false

/-- The next sample of `rst`. -/
def State.tick (s : State) : State := { s with rst := s.rst.tail }

/-- The transport carries out the primitive that was on the port when `rst` was asserted (rule R231): what it does to the
surroundings happens, and the block never sees the result. A primitive that the transport never completes, that comes
while exclusive use is broken, or that the reference device gives no meaning is taken as not carried out (DESIGN CHOICE,
log entry 29). -/
def State.carryOut (s : State) : State :=
  match s.blk.primitive s.params with
  | none => s
  | some prim =>
    match performPrimitive prim s with
    | .completes _ s' => s'
    | .never => s
    | .refused _ => s

/-- The device register the operation in progress addressed becomes uncertain (rule R231, log entry 8). -/
def State.forgetAddressed (s : State) : State :=
  { s with device := s.device.map (fun d => d.forget (selectByte s.params s.blk.ch_r)) }

/-- What asserting `rst` does outside the block: in IDLE nothing (rule R233); in any other state the primitive on the port
may or may not be carried out, and the addressed device register is uncertain (rule R231). -/
def State.abandon (carriedOut : Bool) (s : State) : State :=
  if s.blk.state = .idle then s
  else bif carriedOut then s.carryOut.forgetAddressed else s.forgetAddressed

/-- A step with `rst = 1` (rules R230, R231): an operation in progress is abandoned without `finish`, and every register
of the block holds its reset value. No request is accepted and no primitive is issued. -/
def resetEvent (carriedOut : Bool) (s : State) : State := { s.abandon carriedOut with blk := Block.reset }

end Sys2Proof.Machine
end

