-- ==== Sys2Proof/Machine/RequestPort.lean ====
section
/-! DEFINITION. The request port (30_encoding.md rule R97): taking the request word the host presents, and the illegal
request (41_transport.md rule R158). -/

namespace Sys2Proof.Machine

/-- What stands on the request port. -/
inductive Presented where
  /-- `req_valid = 0`. -/
  | nothing
  /-- A word that decodes to a legal request. -/
  | legal (i : Instr)
  /-- A word that `decode_req` maps to ILLEGAL. -/
  | illegal (w : ReqWord)
deriving DecidableEq, Repr

/-- The request port: the host presents the first of its coming request words (rules R95, R243). -/
def State.presented (s : State) : Presented :=
  match s.requests with
  | [] => .nothing
  | w :: _ =>
    match decode w with
    | .legal i => .legal i
    | .illegal _ => .illegal w

/-- The step with an illegal request word on the port (rule R158): in IDLE it is accepted and completes with
ILLEGAL_REQUEST, without a primitive; in any other state it waits. -/
def illegalStep (w : ReqWord) (s : State) : Host.Outcome State Fault Refusal :=
  requestStep (fun b => b.acceptIllegal (Request.ofWord w)) s

/-- The host presents the word `w` next, to a block that is IDLE and not in reset, with nothing stray on the transport
port: what it takes for the very next step to accept `w`. -/
def State.presenting (s : State) (w : ReqWord) : State :=
  { s with
    requests := w :: s.requests
    rst := bif s.rstAsserted then .released :: s.rst else s.rst
    blk := { s.blk with state := .idle }
    transport := { s.transport with strayDone := false } }

end Sys2Proof.Machine
end

