-- ==== Sys2Proof/Machine/Step.lean ====
section
/-! DEFINITION. One step of the machine, and presenting an instruction to it. -/

namespace Sys2Proof.Machine

/-- A step with `rst = 0`: the step of the request on the port, or with no request. -/
def stepReleased (s : State) : Host.Outcome State Fault Refusal :=
  match s.presented with
  | .nothing => quietStep s
  | .legal i => exec i s
  | .illegal w => illegalStep w s

/-- One step: the sample of `rst` is taken, and the block is reset or takes its step (rules R160, R230). -/
def step (s : State) : Host.Outcome State Fault Refusal :=
  match s.rst with
  | .asserted carriedOut :: _ => .next (resetEvent carriedOut s.tick)
  | _ => stepReleased s.tick

/-- The instruction whose bits are `w` stands on the request port of a block that is ready for it. -/
def State.withFetchWord (s : State) (nbits w : Nat) : State := s.presenting (tableWord nbits w)

end Sys2Proof.Machine
end

