-- ==== Sys2Proof/Machine/Assembler.lean ====
section
/-! DEFINITION. The assembler (30_encoding.md rules R111, R112): request lines, pseudo-instructions and operand forms to
request words. It is no part of the block; it says which word a line of a host program stands for. -/

namespace Sys2Proof.Machine

/-- The lines of rule R111 and the pseudo-instructions of rule R112, with their operands read. -/
inductive AsmLine where
  | enc (cmd : Byte)
  | dec (byte : Byte)
  | wr (ch cmd : Byte)
  | wrv (ch cmd : Byte)
  | rd (ch : Byte)
  /-- `.req <hex24>`. -/
  | req (w : ReqWord)
  /-- `write <ch>, <cmd>`, with or without `, verify`. -/
  | write (ch cmd : Byte) (verify : Bool)
  /-- `read <ch>`. -/
  | read (ch : Byte)
  /-- `encode <cmd>`. -/
  | encode (cmd : Byte)
  /-- `decode <byte>`. -/
  | decode (byte : Byte)
deriving DecidableEq, Repr

/-- The instruction a line stands for, 0 in the ignored fields; a raw word stands for itself (rules R111, R112). -/
def AsmLine.instr? : AsmLine → Option Instr
  | .enc cmd => some (.enc cmd 0x00#8)
  | .dec byte => some (.dec byte 0x00#8)
  | .wr ch cmd => some (.wr cmd ch)
  | .wrv ch cmd => some (.wrv cmd ch)
  | .rd ch => some (.rd 0x00#8 ch)
  | .req _ => none
  | .write ch cmd false => some (.wr cmd ch)
  | .write ch cmd true => some (.wrv cmd ch)
  | .read ch => some (.rd 0x00#8 ch)
  | .encode cmd => some (.enc cmd 0x00#8)
  | .decode byte => some (.dec byte 0x00#8)

/-- The request word of a line (rules R111, R112). -/
def AsmLine.word (l : AsmLine) : ReqWord :=
  match l, l.instr? with
  | .req w, _ => w
  | _, some i => Sys2Proof.encode i
  | _, none => 0#24

/-- The value of a digit in a base up to 16; letters of either case. -/
def digitValue (base : Nat) (c : Char) : Option Nat :=
  let n := c.toNat
  let v := if 48 ≤ n ∧ n ≤ 57 then n - 48 else if 65 ≤ n ∧ n ≤ 70 then n - 55 else if 97 ≤ n ∧ n ≤ 102 then n - 87 else 16
  if v < base then some v else none

/-- The digits of a number, most significant first, on top of what is already read. -/
def digitsValue (base : Nat) : Nat → List Char → Option Nat
  | acc, [] => some acc
  | acc, c :: cs =>
    match digitValue base c with
    | some v => digitsValue base (acc * base + v) cs
    | none => none

/-- An unsigned number: `0x` and hexadecimal digits, or decimal digits. -/
def readUnsigned : List Char → Option Nat
  | [] => none
  | '0' :: 'x' :: c :: cs => digitsValue 16 0 (c :: cs)
  | c :: cs => digitsValue 10 0 (c :: cs)

/-- A hexadecimal number below a bound; a decimal one is refused. -/
def readHex (bound : Nat) : List Char → Option Nat
  | '0' :: 'x' :: c :: cs => (digitsValue 16 0 (c :: cs)).filter (· < bound)
  | _ => none

/-- `<byte>`: `0x00`..`0xFF` (rule R111). -/
def readByte (t : List Char) : Option Byte := (readHex 256 t).map (BitVec.ofNat 8)

/-- `<ch>`: `ch0`, `ch1`, or an unsigned number 0..255 (rule R111). -/
def readChannel (t : List Char) : Option Byte :=
  if t = ['c', 'h', '0'] then some 0x00#8
  else if t = ['c', 'h', '1'] then some 0x01#8
  else ((readUnsigned t).filter (· < 256)).map (BitVec.ofNat 8)

/-- A signed decimal in -128..127 as a byte (rule R111); a host value outside is not narrowed here (rule R94, U15). -/
def readSigned : List Char → Option Byte
  | '-' :: c :: cs => ((digitsValue 10 0 (c :: cs)).filter (· ≤ 128)).map (fun n => byte8 (-(n : Int)))
  | c :: cs => ((digitsValue 10 0 (c :: cs)).filter (· ≤ 127)).map (fun n => byte8 (n : Int))
  | [] => none

/-- `<cmd>`: a signed decimal, or `0x00`..`0xFF` taken as the byte itself (rule R111). -/
def readCommand (t : List Char) : Option Byte :=
  match readByte t with
  | some b => some b
  | none => readSigned t

/-- The line up to a comment, which starts with `;` (rule R111). -/
def stripComment : List Char → List Char
  | [] => []
  | c :: cs => if c = ';' then [] else c :: stripComment cs

/-- The tokens of a line: runs of other characters than space, tab and comma, and the commas themselves. `cur` is the
token being read, last character first. -/
def tokensFrom (cur : List Char) : List Char → List (List Char)
  | [] => if cur = [] then [] else [cur.reverse]
  | c :: cs =>
    let before := if cur = [] then [] else [cur.reverse]
    if c = ' ' ∨ c = '\t' then before ++ tokensFrom [] cs
    else if c = ',' then before ++ [','] :: tokensFrom [] cs
    else tokensFrom (c :: cur) cs

/-- A line with one operand. -/
def readOneOperand (name t : List Char) : Option AsmLine :=
  if name = ['E', 'N', 'C'] then (readCommand t).map .enc
  else if name = ['D', 'E', 'C'] then (readByte t).map .dec
  else if name = ['R', 'D'] then (readChannel t).map .rd
  else if name = ['.', 'r', 'e', 'q'] then (readHex (2 ^ 24) t).map (fun n => .req (BitVec.ofNat 24 n))
  else if name = ['r', 'e', 'a', 'd'] then (readChannel t).map .read
  else if name = ['e', 'n', 'c', 'o', 'd', 'e'] then (readCommand t).map .encode
  else if name = ['d', 'e', 'c', 'o', 'd', 'e'] then (readByte t).map .decode
  else none

/-- A line with a channel and a Command, joined into a line by `make`. -/
def readChannelCommand (make : Byte → Byte → AsmLine) (t u : List Char) : Option AsmLine :=
  match readChannel t, readCommand u with
  | some ch, some cmd => some (make ch cmd)
  | _, _ => none

/-- A line with two operands. -/
def readTwoOperands (name t u : List Char) : Option AsmLine :=
  if name = ['W', 'R'] then readChannelCommand .wr t u
  else if name = ['W', 'R', 'V'] then readChannelCommand .wrv t u
  else if name = ['w', 'r', 'i', 't', 'e'] then readChannelCommand (fun ch cmd => .write ch cmd false) t u
  else none

/-- A line's tokens as a request line (rules R111, R112). -/
def readTokens : List (List Char) → Option AsmLine
  | [name, t] => readOneOperand name t
  | [name, t, comma, u] => if comma = [','] then readTwoOperands name t u else none
  | [name, t, comma, u, comma', v] =>
    if name = ['w', 'r', 'i', 't', 'e'] ∧ comma = [','] ∧ comma' = [','] ∧ v = ['v', 'e', 'r', 'i', 'f', 'y'] then
      readChannelCommand (fun ch cmd => .write ch cmd true) t u
    else none
  | _ => none

/-- What a line of source text is. -/
inductive AsmResult where
  /-- A line with nothing but blanks and a comment. -/
  | blank
  | line (l : AsmLine)
  /-- No form of rules R111 and R112. -/
  | bad
deriving DecidableEq, Repr

/-- A line of source text, one request per line (rule R111). -/
def assembleLine (text : List Char) : AsmResult :=
  match tokensFrom [] (stripComment text) with
  | [] => .blank
  | toks =>
    match readTokens toks with
    | some l => .line l
    | none => .bad

end Sys2Proof.Machine
end

