-- ==== Sys2Proof/Machine/Bus.lean ====
section
/-! DEFINITION. The frames on the I2C bus (30_encoding.md rules R105 to R108, 41_transport.md rule R170). The transport
forms them from the primitives; the block never sees them. -/

namespace Sys2Proof.Machine

/-- The bus symbols (00_scope.md rule R19). -/
inductive BusSymbol where
  /-- `S`, a START condition. -/
  | start
  /-- `Sr`, a repeated START. -/
  | repeatedStart
  /-- `P`, a STOP condition. -/
  | stop
  /-- An 8-bit transfer. -/
  | transfer (b : Byte)
  /-- `A`, an acknowledge. -/
  | ack
  /-- `N`, a not-acknowledge. -/
  | nack
  /-- One symbol that the record does not show: a received byte that nothing read, or an acknowledge bit of a transaction
  whose status was not 0 (log entry 30). -/
  | unseen
  /-- A stretch for which the spec gives no symbols (log entry 30). -/
  | unstated
deriving DecidableEq, Repr

/-- `ADDR+W`, the address byte of the write direction (rule R105). PRESUMED (log entry 17): the direction is bit 0. -/
def addressWrite (a7 : Addr7) : Byte := a7 ++ 0#1

/-- `ADDR+R`, the address byte of the read direction (rule R105). PRESUMED (log entry 17): the direction is bit 0. -/
def addressRead (a7 : Addr7) : Byte := a7 ++ 1#1

/-- The acknowledge bits of a transaction that ended with this status: any not-acknowledge makes the status non-zero
(20_memory.md rule R72), so status 0 shows `A`, and another status does not show which bit was `N`. -/
def ackSymbol (status : Byte) : BusSymbol := if status = 0x00#8 then .ack else .unseen

/-- The write frame `S 0x90 A r A d A P` (rule R106). PRESUMED (log entry 17): the places of the `A`. -/
def writeFrame (a7 : Addr7) (r d status : Byte) : List BusSymbol :=
  [.start, .transfer (addressWrite a7), ackSymbol status, .transfer r, ackSymbol status, .transfer d, ackSymbol status,
    .stop]

/-- The first part `S 0x90 A r A` of the read frame, with no `P` (rules R107, R170): the pointer write. PRESUMED (log
entry 17): the places of the `A`. -/
def pointerFrame (a7 : Addr7) (r status : Byte) : List BusSymbol :=
  [.start, .transfer (addressWrite a7), ackSymbol status, .transfer r, ackSymbol status]

/-- The second part `Sr 0x91 A d N P` of the read frame (rule R107), or `Sr 0x91 … P` where no byte came: the STOP is sent
in either case (rule R171). PRESUMED (log entry 17): the places of `A` and `N`. -/
def requestFrame (a7 : Addr7) : Option BusSymbol → List BusSymbol
  | some d => [.repeatedStart, .transfer (addressRead a7), .ack, d, .nack, .stop]
  | none => [.repeatedStart, .transfer (addressRead a7), .unstated, .stop]

/-- The byte a `T_REQUEST` for one byte received, where one came: the byte it is seen to take; else the byte the cycle's
`T_READ` returns, after any count but 0 (rules R107, R167). Before a count, or with a count and no `T_READ`, the byte is
not seen (log entry 30). -/
def receivedSymbol (taken : Option Byte) (later : List Issue) : Option BusSymbol :=
  match taken, later with
  | some b, _ => some (.transfer b)
  | none, ⟨.tAvailable, count, _⟩ :: ⟨.tRead, b, _⟩ :: _ => if count = 0x00#8 then none else some (.transfer b)
  | none, ⟨.tAvailable, count, _⟩ :: _ => if count = 0x00#8 then none else some .unseen
  | none, _ => some .unseen

/-- The symbols a list of completed primitives appears as on the bus (rule R170), oldest first. `T_AVAILABLE` and `T_READ`
look at the receive buffer alone. A primitive that is part of neither cycle, such as one of a transaction that a reset
abandoned, is a stretch for which the spec gives no symbols. -/
def busFrames : List Issue → List BusSymbol
  | [] => []
  | ⟨.tBegin a, _, _⟩ :: ⟨.tWrite r, _, _⟩ :: ⟨.tWrite d, _, _⟩ :: ⟨.tEnd true, status, _⟩ :: rest =>
    writeFrame a r d status ++ busFrames rest
  | ⟨.tBegin a, _, _⟩ :: ⟨.tWrite r, _, _⟩ :: ⟨.tEnd false, status, _⟩ :: ⟨.tRequest a' n true, _, taken⟩ :: rest =>
    pointerFrame a r status ++
      (if n = Sys2Proof.Config.readCount then requestFrame a' (receivedSymbol taken rest) else [.unstated]) ++
      busFrames rest
  | ⟨.tBegin a, _, _⟩ :: ⟨.tWrite r, _, _⟩ :: ⟨.tEnd false, status, _⟩ :: rest =>
    pointerFrame a r status ++ busFrames rest
  | ⟨.tAvailable, _, _⟩ :: rest => busFrames rest
  | ⟨.tRead, _, _⟩ :: rest => busFrames rest
  | _ :: rest => .unstated :: busFrames rest

end Sys2Proof.Machine
end

