-- ==== Sys2Proof/Machine/Ports.lean ====
section
/-! DEFINITION. The output ports (30_encoding.md rules R97 to R99) and what the host may read (10_state.md rule R45,
70_reset_and_hazards.md rule R241). All of them are combinational views of the state. -/

namespace Sys2Proof.Machine

/-- The output signals of the transport port (rule R99). -/
structure TransportPort where
  t_op : BitVec 3
  t_a : Byte
  t_n : Byte
  t_stop : Bool
deriving DecidableEq, Repr

/-- The primitive codes of rule R99. -/
def Primitive.code : Primitive → BitVec 3
  | .tBegin _ => 0b000#3
  | .tWrite _ => 0b001#3
  | .tEnd _ => 0b010#3
  | .tRequest _ _ _ => 0b011#3
  | .tAvailable => 0b100#3
  | .tRead => 0b101#3

/-- `t_a`: the address `0, a7` for BEGIN and REQUEST, the byte for WRITE, zero otherwise (rule R99). -/
def Primitive.addressByte : Primitive → Byte
  | .tBegin a7 => a7.setWidth 8
  | .tWrite b8 => b8
  | .tEnd _ => 0x00#8
  | .tRequest a7 _ _ => a7.setWidth 8
  | .tAvailable => 0x00#8
  | .tRead => 0x00#8

/-- `t_n`: the byte count for REQUEST, zero otherwise (rule R99). -/
def Primitive.countByte : Primitive → Byte
  | .tRequest _ n _ => n
  | .tBegin _ => 0x00#8
  | .tWrite _ => 0x00#8
  | .tEnd _ => 0x00#8
  | .tAvailable => 0x00#8
  | .tRead => 0x00#8

/-- `t_stop`: the stop flag for END and REQUEST, 0 otherwise (rule R99). -/
def Primitive.stopFlag : Primitive → Bool
  | .tEnd stop => stop
  | .tRequest _ _ stop => stop
  | .tBegin _ => false
  | .tWrite _ => false
  | .tAvailable => false
  | .tRead => false

/-- The transport port's outputs for a primitive (rule R99). -/
def Primitive.port (prim : Primitive) : TransportPort :=
  { t_op := prim.code, t_a := prim.addressByte, t_n := prim.countByte, t_stop := prim.stopFlag }

/-- `t_valid`: a primitive is being issued; never while `rst = 1` (rules R99, R230). -/
def State.tValid (s : State) : Bool := !s.rstAsserted && s.blk.state != .idle

/-- The transport port: what is on it while `t_valid = 1` (rule R99). -/
def State.transportPort (s : State) : Option TransportPort :=
  match s.tValid with
  | true => (s.blk.primitive s.params).map Primitive.port
  | false => none

/-- `req_ready`: the block is IDLE and not in reset (rules R97, R230). -/
def State.reqReady (s : State) : Bool := !s.rstAsserted && s.blk.state == .idle

/-- `req_valid`: the host presents a request word (rule R97). -/
def State.reqValid (s : State) : Bool := !s.requests.isEmpty

/-- The response of an operation (rule R21). -/
structure Response where
  ok : Bool
  val : Byte
  err : BitVec 3
deriving DecidableEq, Repr

/-- The response registers as they stand on the response port (rule R98). -/
def Block.response (b : Block) : Response := { ok := b.resp_ok, val := b.resp_val, err := b.resp_err }

/-- The host reads the response. While `done = 0` there is none to read (rule R241, U12). -/
def State.readResponse (s : State) : Option Response :=
  match s.blk.done with
  | true => some s.blk.response
  | false => none

/-- All the host can observe (rule R45): `done`, `req_ready`, and the response while there is one. -/
structure HostView where
  done : Bool
  req_ready : Bool
  response : Option Response
deriving DecidableEq, Repr

/-- What the host observes of a state (rules R45, R241). -/
def State.hostView (s : State) : HostView :=
  { done := s.blk.done, req_ready := s.reqReady, response := s.readResponse }

end Sys2Proof.Machine
end

