-- ==== Sys2Proof/Safety.lean ====
section
/-! DEFINITION. The terms the claims are stated in: the duties of the surroundings, the invariants of the block and of the
reference device, and the rows of the outcome table (41_transport.md rule R163). -/

namespace Sys2Proof.Machine

open Sys2Proof.Config (Params)

/-- `k` steps of the machine. -/
def run (k : Nat) (s : State) : Host.Outcome State Fault Refusal := Host.Core.run Sys2Proof.core k s

/-- The block is ready to accept: IDLE, and the transport port is quiet (rules R150, R219). -/
abbrev State.Ready (s : State) : Prop := s.blk.state = .idle ∧ s.transport.strayDone = false

/-- The states of the write cycle (rule R153). -/
def FsmState.inWriteCycle : FsmState → Bool
  | .wBegin => true
  | .wSel => true
  | .wData => true
  | .wEnd => true
  | .idle => false
  | .rBegin => false
  | .rSel => false
  | .rEnd => false
  | .rReq => false
  | .rAvail => false
  | .rRead => false

/-- The states of the read cycle (rule R154). -/
def FsmState.inReadCycle : FsmState → Bool
  | .rBegin => true
  | .rSel => true
  | .rEnd => true
  | .rReq => true
  | .rAvail => true
  | .rRead => true
  | .idle => false
  | .wBegin => false
  | .wSel => false
  | .wData => false
  | .wEnd => false

/-- The response is `(ok, val, err)`. -/
abbrev Block.Responds (b : Block) (ok : Bool) (val : Byte) (err : BitVec 3) : Prop :=
  b.resp_ok = ok ∧ b.resp_val = val ∧ b.resp_err = err

/-- The block's registers stand as after one of the rows of the outcome table (rule R163), read with the working
registers the row's path wrote. An illegal request leaves no other trace than its row, since `rsv` is not latched. -/
inductive Block.OutcomeRow (p : Params) (b : Block) : Prop where
  | enc (op : b.op_r = 0#3) (resp : b.Responds true (Codec.encode b.data_r) 0#3)
  | dec (op : b.op_r = 1#3) (resp : b.Responds true (Codec.decode b.data_r) 0#3)
  | illegal (resp : b.Responds false 0x80#8 5#3)
  | writeInvalidChannel (op : b.op_r = 2#3 ∨ b.op_r = 3#3) (ch : validChannel b.ch_r = false)
      (resp : b.Responds false 0x00#8 1#3)
  | writeFailed (op : b.op_r = 2#3 ∨ b.op_r = 3#3) (ch : validChannel b.ch_r = true) (status : b.status_r ≠ 0#8)
      (resp : b.Responds false 0x00#8 2#3)
  | written (op : b.op_r = 2#3) (ch : validChannel b.ch_r = true) (status : b.status_r = 0#8)
      (resp : b.Responds true 0x00#8 0#3)
  | readBackUnavailable (op : b.op_r = 3#3) (ch : validChannel b.ch_r = true) (count : b.navail_r = 0#8)
      (resp : b.Responds false 0x80#8 3#3)
  | verified (op : b.op_r = 3#3) (ch : validChannel b.ch_r = true) (count : b.navail_r ≠ 0#8)
      (same : Codec.decode b.rd_r = b.verifyTarget p) (resp : b.Responds true (Codec.decode b.rd_r) 0#3)
  | verifyMismatch (op : b.op_r = 3#3) (ch : validChannel b.ch_r = true) (count : b.navail_r ≠ 0#8)
      (differs : Codec.decode b.rd_r ≠ b.verifyTarget p) (resp : b.Responds false (Codec.decode b.rd_r) 4#3)
  | readInvalidChannel (op : b.op_r = 4#3) (ch : validChannel b.ch_r = false) (resp : b.Responds false 0x80#8 1#3)
  | readUnavailable (op : b.op_r = 4#3) (ch : validChannel b.ch_r = true) (count : b.navail_r = 0#8)
      (resp : b.Responds false 0x80#8 3#3)
  | readDone (op : b.op_r = 4#3) (ch : validChannel b.ch_r = true) (count : b.navail_r ≠ 0#8)
      (resp : b.Responds true (Codec.decode b.rd_r) 0#3)

/-- The invariant of the block's registers. -/
structure Block.Consistent (p : Params) (b : Block) : Prop where
  /-- An operation in progress has no response (rule R41). -/
  busy : b.state ≠ .idle → b.done = false
  /-- A finished operation is a row of the outcome table (rules R41, R163). -/
  finished : b.done = true → b.OutcomeRow p
  /-- A write cycle belongs to a WR or WRV with a valid channel, and `enc_r` is the encoded data (rules R36, R152). -/
  writing : b.state.inWriteCycle = true →
    (b.op_r = 2#3 ∨ b.op_r = 3#3) ∧ validChannel b.ch_r = true ∧ b.enc_r = Codec.encode b.data_r ∧ b.vfy_r = false
  /-- A read cycle belongs to an RD, or to a WRV and then with `vfy_r = 1`, with a valid channel (rules R37, R152). -/
  reading : b.state.inReadCycle = true →
    ((b.op_r = 4#3 ∧ b.vfy_r = false) ∨ (b.op_r = 3#3 ∧ b.vfy_r = true)) ∧ validChannel b.ch_r = true
  /-- A byte is taken only after a count that was not 0 (rule R167). -/
  available : b.state = .rRead → b.navail_r ≠ 0#8

/-- The reference device's registers: canonical cells, for no other register than the two that exist (rule R61). -/
structure RefDevice.RegistersOk (p : Params) (d : RefDevice) : Prop where
  canonical : Memory.wf d.mem = true
  exist : ∀ c ∈ d.mem, c.1 = p.regSel0.toNat ∨ c.1 = p.regSel1.toNat

/-- The machine's invariant. -/
structure State.Inv (s : State) : Prop where
  block : s.blk.Consistent s.params
  device : ∀ d, s.device = some d → d.RegistersOk s.params

/-- What the reference device holds of the transaction in progress in each state of the block, so that rule R80 gives the
block's next primitive a meaning. -/
def RefDevice.InStep (p : Params) (b : Block) (d : RefDevice) : Prop :=
  match b.state with
  | .idle => True
  | .wBegin => True
  | .wSel => d.txn = some []
  | .wData => d.txn = some [selectByte p b.ch_r]
  | .wEnd => d.txn = some [selectByte p b.ch_r, b.enc_r]
  | .rBegin => True
  | .rSel => d.txn = some []
  | .rEnd => d.txn = some [selectByte p b.ch_r]
  | .rReq => d.ptr = selectByte p b.ch_r
  | .rAvail => d.rx ≠ []
  | .rRead => d.rx ≠ []

/-- The reference device, if it is in place, is in step with the block. -/
def State.InStep (s : State) : Prop := ∀ d, s.device = some d → d.InStep s.params s.blk

/-- The transport completes every primitive it is given (rules R177, R251): no coming answer of the general transport is
`never`, and a reference device is in step with the block. -/
structure State.TransportCompletes (s : State) : Prop where
  answers : Answer.never ∉ s.transport.answers
  device : s.InStep

/-- The duties of the host and the platform (rules R178, R219, R242). -/
structure State.DutiesHeld (s : State) : Prop where
  exclusive : s.transport.exclusive = true
  quiet : s.transport.strayDone = false

/-- The four primitives of a write cycle (rule R153). -/
def writePrimitives (p : Params) (ch d : Byte) : List Primitive :=
  [.tBegin 0x48#7, .tWrite (selectByte p ch), .tWrite d, .tEnd true]

/-- The first five primitives of a read cycle, up to the availability check (rule R154). -/
def pollPrimitives (p : Params) (ch : Byte) : List Primitive :=
  [.tBegin 0x48#7, .tWrite (selectByte p ch), .tEnd false, .tRequest 0x48#7 0x01#8 true, .tAvailable]

/-- Primitives completed with these results, in order, with no byte shown (the general transport's record). -/
def issuesOf (prims : List Primitive) (results : List Byte) : List Issue :=
  List.zipWith (fun prim res => { prim := prim, res := res }) prims results

/-- The transport after it gave `n` of its coming answers to the primitives `new`. -/
def Transport.after (t : Transport) (n : Nat) (new : List Issue) : Transport :=
  { t with answers := t.answers.drop n, issued := t.issued ++ new }

/-- The general transport is in place, used by this block alone, and its coming answers begin with these results
(rule R175). -/
structure State.Answers (s : State) (results : List Byte) : Prop where
  general : s.device = none
  exclusive : s.transport.exclusive = true
  prepared : ∃ later, s.transport.answers = results.map Answer.complete ++ later

/-- The host presents the word `w` next to a block that is ready and not in reset. -/
structure State.Offers (s : State) (w : ReqWord) : Prop where
  ready : s.Ready
  released : s.rst = []
  presented : s.requests.head? = some w

/-- Two sets of registers agree in all that the host, the transport or a later step can see: the control state, `done`,
the response where there is one, the latched request, `vfy_r`, and in a write cycle `enc_r` (rules R45, R50). They may
differ in `status_r`, `navail_r`, `rd_r`, in a stale `enc_r` and in a stale response. -/
structure Block.AgreesWith (b b' : Block) : Prop where
  state : b'.state = b.state
  done : b'.done = b.done
  response : b.done = true → b'.response = b.response
  op : b'.op_r = b.op_r
  ch : b'.ch_r = b.ch_r
  data : b'.data_r = b.data_r
  vfy : b'.vfy_r = b.vfy_r
  enc : b.state.inWriteCycle = true → b'.enc_r = b.enc_r

/-- Two outcomes agree: both go on, with the same surroundings and registers that agree, or both stop alike. -/
def AgreeingOutcomes : Host.Outcome State Fault Refusal → Host.Outcome State Fault Refusal → Prop
  | .next t, .next u => u = { t with blk := u.blk } ∧ t.blk.AgreesWith u.blk
  | .fault f, .fault g => f = g
  | .refused f, .refused g => f = g
  | _, _ => False

/-- What the host and the transport see of two outcomes is the same: the same surroundings, the same control state and
completion flag, and the same response where there is one (rules R45, R50). -/
def SameOutside : Host.Outcome State Fault Refusal → Host.Outcome State Fault Refusal → Prop
  | .next t, .next u =>
    u = { t with blk := u.blk } ∧ u.blk.state = t.blk.state ∧ u.hostView = t.hostView ∧ u.transportPort = t.transportPort
  | .fault f, .fault g => f = g
  | .refused f, .refused g => f = g
  | _, _ => False

end Sys2Proof.Machine
end

