-- ==== Sys2Proof/Certificates/Slice0/Obligations.lean ====
section
/-! DEFINITION. The statements for the provers. Each says which rules of the spec it formalises. -/

open Sys2Proof Sys2Proof.Machine

/-! ### The codec (40_codec.md) -/

/-- Rule R141, an inference of the spec from its rules R120 and R124: the closed forms of `encode` and `decode`, on every
byte. -/
def Obligations.CodecClosedForms : Prop :=
  ∀ v : Byte,
    (v.toNat ≤ 0x7F → Codec.encode v = 0x80#8 ||| v) ∧
    (0x81 ≤ v.toNat → Codec.encode v = BitVec.ofNat 8 ((0x100 - v.toNat) &&& 0xFF)) ∧
    (v = 0x80#8 → Codec.encode v = 0x7F#8) ∧
    (v.getLsbD 7 = true → Codec.decode v = v &&& 0x7F#8) ∧
    (v.getLsbD 7 = false → Codec.decode v = BitVec.ofNat 8 ((0x100 - (v &&& 0x7F#8).toNat) &&& 0xFF))

/-- Rule R132: decoding an encoded Command of the logical range gives the Command back. -/
def Obligations.RoundTrip : Prop :=
  ∀ c : Byte, -127 ≤ sint8 c → sint8 c ≤ 127 → Codec.decode (Codec.encode c) = c

/-- Rule R139, an inference of the spec from its rules R121, R132 and R133: -128 comes back as -127, every other Command
as itself. -/
def Obligations.DecodeAfterEncode : Prop :=
  ∀ c : Byte, Codec.decode (Codec.encode c) = if c = 0x80#8 then 0x81#8 else c

/-- Rule R133 with its value: -128 and -127 encode alike. -/
def Obligations.SaturationLaw : Prop :=
  Codec.encode 0x80#8 = Codec.encode 0x81#8 ∧ Codec.encode 0x81#8 = 0x7F#8

/-- Rule R137, an inference of the spec from its rules R120 and R124: encoding a decoded byte gives the byte back, but for
the negative zero. -/
def Obligations.EncodeAfterDecode : Prop :=
  (∀ b : Byte, b ≠ 0x00#8 → Codec.encode (Codec.decode b) = b) ∧ Codec.encode (Codec.decode 0x00#8) = 0x80#8

/-- Rules R136 and R138, inferences of the spec from its rules R120, R121, R124 and R127: the only collisions of `decode`
and `encode`, and their images. -/
def Obligations.CodecCollisionsAndImages : Prop :=
  (Codec.decode 0x00#8 = 0x00#8 ∧ Codec.decode 0x80#8 = 0x00#8) ∧
  (∀ b b' : Byte, b ≠ b' → Codec.decode b = Codec.decode b' →
    (b = 0x00#8 ∧ b' = 0x80#8) ∨ (b = 0x80#8 ∧ b' = 0x00#8)) ∧
  (∀ c : Byte, (∃ b, Codec.decode b = c) ↔ c ≠ 0x80#8) ∧
  (∀ c c' : Byte, c ≠ c' → Codec.encode c = Codec.encode c' →
    (c = 0x80#8 ∧ c' = 0x81#8) ∨ (c = 0x81#8 ∧ c' = 0x80#8)) ∧
  (∀ b : Byte, (∃ c, Codec.encode c = b) ↔ b ≠ 0x00#8)

/-- Rule R127: a decoded value lies in [-127, 127] and is never the error sentinel. -/
def Obligations.DecodeNeverSentinel : Prop :=
  ∀ b : Byte, -127 ≤ sint8 (Codec.decode b) ∧ sint8 (Codec.decode b) ≤ 127 ∧ Codec.decode b ≠ 0x80#8

/-- Rule R134: the sign bit of an encoded Command, -128 included. -/
def Obligations.SignBitMapping : Prop :=
  ∀ c : Byte,
    (0 ≤ sint8 c → Codec.encode c &&& 0x80#8 ≠ 0#8) ∧ (sint8 c < 0 → Codec.encode c &&& 0x80#8 = 0#8)

/-- Rule R135, whose second half is an inference of the spec from its rule R123: the magnitude of an encoded Command. -/
def Obligations.MagnitudeBound : Prop :=
  ∀ c : Byte,
    (Codec.encode c &&& 0x7F#8).toNat ≤ 127 ∧
    (Codec.encode c &&& 0x7F#8).toNat = (if c = 0x80#8 then 127 else (sint8 c).natAbs)

/-! ### Encodings (30_encoding.md) -/

/-- Rules R90, R91, R95: every instruction, whatever its fields hold, decodes from its own word. -/
def Obligations.DecodeOfEncode : Prop :=
  ∀ i : Instr, decode (encode i) = .legal i

/-- Rules R90, R91, R95: a word that decodes to an instruction is that instruction's word. -/
def Obligations.EncodeOfDecode : Prop :=
  ∀ (w : ReqWord) (i : Instr), decode w = .legal i → encode i = w

/-- Rule R95: `decode_req` on every word, the reserved field first. -/
def Obligations.DecodeRequestTable : Prop :=
  ∀ w : ReqWord,
    (w.extractLsb' 3 5 ≠ 0#5 → decode w = .illegal .reservedField) ∧
    (w.extractLsb' 3 5 = 0#5 →
      (w.extractLsb' 0 3 = 0b000#3 → decode w = .legal (.enc (w.extractLsb' 16 8) (w.extractLsb' 8 8))) ∧
      (w.extractLsb' 0 3 = 0b001#3 → decode w = .legal (.dec (w.extractLsb' 16 8) (w.extractLsb' 8 8))) ∧
      (w.extractLsb' 0 3 = 0b010#3 → decode w = .legal (.wr (w.extractLsb' 16 8) (w.extractLsb' 8 8))) ∧
      (w.extractLsb' 0 3 = 0b011#3 → decode w = .legal (.wrv (w.extractLsb' 16 8) (w.extractLsb' 8 8))) ∧
      (w.extractLsb' 0 3 = 0b100#3 → decode w = .legal (.rd (w.extractLsb' 16 8) (w.extractLsb' 8 8))) ∧
      (0b101 ≤ (w.extractLsb' 0 3).toNat → decode w = .illegal .reservedOp))

/-- Words written out from rule R90's layout decode to what rule R91 says (95_test_vectors.md section 2.2). -/
def Obligations.DecodeSampleWords : Prop :=
  decode 0x640000#24 = .legal (.enc 0x64#8 0x00#8) ∧
  decode 0x4B0001#24 = .legal (.dec 0x4B#8 0x00#8) ∧
  decode 0xB50102#24 = .legal (.wr 0xB5#8 0x01#8) ∧
  decode 0x320003#24 = .legal (.wrv 0x32#8 0x00#8) ∧
  decode 0xFF0104#24 = .legal (.rd 0xFF#8 0x01#8) ∧
  decode 0x000008#24 = .illegal .reservedField ∧
  decode 0x000507#24 = .illegal .reservedOp

/-- Rules R111 and R112: the request word of every assembler line and pseudo-instruction. -/
def Obligations.AssembledWords : Prop :=
  ∀ (ch v : Byte) (w : ReqWord),
    (AsmLine.enc v).word = v ++ 0x00#8 ++ 0b00000#5 ++ 0b000#3 ∧
    (AsmLine.dec v).word = v ++ 0x00#8 ++ 0b00000#5 ++ 0b001#3 ∧
    (AsmLine.wr ch v).word = v ++ ch ++ 0b00000#5 ++ 0b010#3 ∧
    (AsmLine.wrv ch v).word = v ++ ch ++ 0b00000#5 ++ 0b011#3 ∧
    (AsmLine.rd ch).word = 0x00#8 ++ ch ++ 0b00000#5 ++ 0b100#3 ∧
    (AsmLine.req w).word = w ∧
    (AsmLine.write ch v false).word = (AsmLine.wr ch v).word ∧
    (AsmLine.write ch v true).word = (AsmLine.wrv ch v).word ∧
    (AsmLine.read ch).word = (AsmLine.rd ch).word ∧
    (AsmLine.encode v).word = (AsmLine.enc v).word ∧
    (AsmLine.decode v).word = (AsmLine.dec v).word

/-! ### Acceptance (41_transport.md sections 1 and 3) -/

/-- A step runs the decoded instruction: with `rst` released and a word on the request port that decodes to `i`, the step
is `exec i` after the sample of `rst` is taken; nothing else is added around it (rules R95, R150). That a request waits inside `exec` while
the block is busy is the model's choice (log entry 16). -/
def Obligations.StepRunsDecodedRequest : Prop :=
  ∀ (s : State) (w : ReqWord) (rest : List ReqWord) (i : Instr),
    s.rstAsserted = false → s.requests = w :: rest → decode w = .legal i → step s = exec i s.tick

/-- Rule R130: an ENC completes in its acceptance step, and nothing else changes. -/
def Obligations.EncCompletes : Prop :=
  ∀ (s : State) (data ch : Byte), s.Ready →
    exec (.enc data ch) s = .next { s with
      requests := s.requests.tail
      blk := { s.blk with
        state := .idle, op_r := 0b000#3, ch_r := ch, data_r := data, vfy_r := false,
        done := true, resp_ok := true, resp_val := Codec.encode data, resp_err := 0#3 } }

/-- Rule R131: a DEC completes in its acceptance step, and nothing else changes. -/
def Obligations.DecCompletes : Prop :=
  ∀ (s : State) (data ch : Byte), s.Ready →
    exec (.dec data ch) s = .next { s with
      requests := s.requests.tail
      blk := { s.blk with
        state := .idle, op_r := 0b001#3, ch_r := ch, data_r := data, vfy_r := false,
        done := true, resp_ok := true, resp_val := Codec.decode data, resp_err := 0#3 } }

/-- Rules R150 and R155: a WR with a valid channel is accepted, its byte encoded, and its write cycle begins; nothing
else changes. -/
def Obligations.WrBegins : Prop :=
  ∀ (s : State) (data ch : Byte), s.Ready → (ch = 0x00#8 ∨ ch = 0x01#8) →
    exec (.wr data ch) s = .next { s with
      requests := s.requests.tail
      blk := { s.blk with
        state := .wBegin, op_r := 0b010#3, ch_r := ch, data_r := data, enc_r := Codec.encode data, vfy_r := false,
        done := false } }

/-- Rules R150 and R156: a WRV with a valid channel is accepted, its byte encoded, and its write cycle begins; nothing
else changes. -/
def Obligations.WrvBegins : Prop :=
  ∀ (s : State) (data ch : Byte), s.Ready → (ch = 0x00#8 ∨ ch = 0x01#8) →
    exec (.wrv data ch) s = .next { s with
      requests := s.requests.tail
      blk := { s.blk with
        state := .wBegin, op_r := 0b011#3, ch_r := ch, data_r := data, enc_r := Codec.encode data, vfy_r := false,
        done := false } }

/-- Rules R150 and R157: an RD with a valid channel is accepted and its read cycle begins; nothing else changes. -/
def Obligations.RdBegins : Prop :=
  ∀ (s : State) (data ch : Byte), s.Ready → (ch = 0x00#8 ∨ ch = 0x01#8) →
    exec (.rd data ch) s = .next { s with
      requests := s.requests.tail
      blk := { s.blk with
        state := .rBegin, op_r := 0b100#3, ch_r := ch, data_r := data, vfy_r := false, done := false } }

/-- Rules R152 and R202: with any other channel, WR, WRV and RD complete in their acceptance step with INVALID_CHANNEL,
without a primitive; nothing else changes. -/
def Obligations.InvalidChannelCompletes : Prop :=
  ∀ (s : State) (data ch : Byte), s.Ready → ch ≠ 0x00#8 → ch ≠ 0x01#8 →
    (exec (.wr data ch) s = .next { s with
      requests := s.requests.tail
      blk := { s.blk with
        state := .idle, op_r := 0b010#3, ch_r := ch, data_r := data, vfy_r := false,
        done := true, resp_ok := false, resp_val := 0x00#8, resp_err := 1#3 } }) ∧
    (exec (.wrv data ch) s = .next { s with
      requests := s.requests.tail
      blk := { s.blk with
        state := .idle, op_r := 0b011#3, ch_r := ch, data_r := data, vfy_r := false,
        done := true, resp_ok := false, resp_val := 0x00#8, resp_err := 1#3 } }) ∧
    (exec (.rd data ch) s = .next { s with
      requests := s.requests.tail
      blk := { s.blk with
        state := .idle, op_r := 0b100#3, ch_r := ch, data_r := data, vfy_r := false,
        done := true, resp_ok := false, resp_val := 0x80#8, resp_err := 1#3 } })

/-- Rules R158 and R208: an illegal word, whatever its channel, completes in its acceptance step with ILLEGAL_REQUEST,
without a primitive; nothing else changes. -/
def Obligations.IllegalRequestCompletes : Prop :=
  ∀ (s : State) (w : ReqWord) (rest : List ReqWord),
    s.rstAsserted = false → s.Ready → s.requests = w :: rest →
    (w.extractLsb' 3 5 ≠ 0#5 ∨ 0b101 ≤ (w.extractLsb' 0 3).toNat) →
    step s = .next { s with
      rst := s.rst.tail
      requests := rest
      blk := { s.blk with
        state := .idle, op_r := w.extractLsb' 0 3, ch_r := w.extractLsb' 8 8, data_r := w.extractLsb' 16 8,
        vfy_r := false, done := true, resp_ok := false, resp_val := 0x80#8, resp_err := 5#3 } }

/-- Rules R97, R150 and R243: a step takes the presented word off the request port exactly when the block is ready and a
word is presented; it leaves every other word there. The list of requests is the one rule R243 asks for (log entry 3). -/
def Obligations.RequestTakenOnlyWhenReady : Prop :=
  ∀ s t : State, step s = .next t →
    (s.reqReady = true → t.requests = s.requests.tail) ∧ (s.reqReady = false → t.requests = s.requests)

/-- Rule R162: while an operation is in progress the block is not ready, which request is presented makes no difference,
and the latched request stays. That `exec` is then the step of the operation in progress is the model's choice (log
entry 16). -/
def Obligations.BusyRequestWaits : Prop :=
  ∀ s : State, s.blk.state ≠ .idle →
    s.reqReady = false ∧
    (∀ i j : Instr, exec i s = exec j s) ∧
    (∀ (i : Instr) (t : State), exec i s = .next t →
      t.requests = s.requests ∧ t.blk.op_r = s.blk.op_r ∧ t.blk.ch_r = s.blk.ch_r ∧ t.blk.data_r = s.blk.data_r)

/-! ### The sequencer's steps (41_transport.md sections 2 and 4) -/

/-- Rules R153, R154, R166 and R169, the steps whose result is not looked at: each state's primitive completes, the state
moves on, and of the block's registers only `status_r` of R_END changes (rule R173). The rows of rule R161, which the spec
marks as its own derivation, say the same. -/
def Obligations.PassingSteps : Prop :=
  ∀ (s s' : State) (res : Byte), s.rstAsserted = false →
    (s.blk.state = .wBegin → performPrimitive (.tBegin 0x48#7) s.tick = .completes res s' →
      step s = .next { s' with blk := { s.blk with state := .wSel } }) ∧
    (s.blk.state = .wSel → performPrimitive (.tWrite (selectByte s.params s.blk.ch_r)) s.tick = .completes res s' →
      step s = .next { s' with blk := { s.blk with state := .wData } }) ∧
    (s.blk.state = .wData → performPrimitive (.tWrite s.blk.enc_r) s.tick = .completes res s' →
      step s = .next { s' with blk := { s.blk with state := .wEnd } }) ∧
    (s.blk.state = .rBegin → performPrimitive (.tBegin 0x48#7) s.tick = .completes res s' →
      step s = .next { s' with blk := { s.blk with state := .rSel } }) ∧
    (s.blk.state = .rSel → performPrimitive (.tWrite (selectByte s.params s.blk.ch_r)) s.tick = .completes res s' →
      step s = .next { s' with blk := { s.blk with state := .rEnd } }) ∧
    (s.blk.state = .rEnd → performPrimitive (.tEnd false) s.tick = .completes res s' →
      step s = .next { s' with blk := { s.blk with state := .rReq, status_r := res } }) ∧
    (s.blk.state = .rReq → performPrimitive (.tRequest 0x48#7 0x01#8 true) s.tick = .completes res s' →
      step s = .next { s' with blk := { s.blk with state := .rAvail } })

/-- Rule R153, the W_END step: failure, the end of a WR, or the turn of a WRV to its read cycle. -/
def Obligations.WriteEndStep : Prop :=
  ∀ (s s' : State) (status : Byte), s.rstAsserted = false → s.blk.state = .wEnd →
    performPrimitive (.tEnd true) s.tick = .completes status s' →
    (status ≠ 0x00#8 → step s = .next { s' with blk := { s.blk with
      state := .idle, status_r := status, done := true, resp_ok := false, resp_val := 0x00#8, resp_err := 2#3 } }) ∧
    (status = 0x00#8 → s.blk.op_r = 0b010#3 → step s = .next { s' with blk := { s.blk with
      state := .idle, status_r := status, done := true, resp_ok := true, resp_val := 0x00#8, resp_err := 0#3 } }) ∧
    (status = 0x00#8 → s.blk.op_r ≠ 0b010#3 → step s = .next { s' with blk := { s.blk with
      state := .rBegin, status_r := status, vfy_r := true } })

/-- Rules R154 and R167, the R_AVAIL step: no byte ends the operation, any other count moves on to `T_READ`. -/
def Obligations.AvailabilityStep : Prop :=
  ∀ (s s' : State) (count : Byte), s.rstAsserted = false → s.blk.state = .rAvail →
    performPrimitive .tAvailable s.tick = .completes count s' →
    (count = 0x00#8 → step s = .next { s' with blk := { s.blk with
      state := .idle, navail_r := count, done := true, resp_ok := false, resp_val := 0x80#8, resp_err := 3#3 } }) ∧
    (count ≠ 0x00#8 → step s = .next { s' with blk := { s.blk with state := .rRead, navail_r := count } })

/-- Rules R154, R157 and R159, the R_READ step: an RD answers the decoded byte, and a WRV compares it with its target,
which is the requested Command or the saturated one (rule R10). -/
def Obligations.ReadStep : Prop :=
  ∀ (s s' : State) (b : Byte), s.rstAsserted = false → s.blk.state = .rRead →
    performPrimitive .tRead s.tick = .completes b s' →
    (s.blk.vfy_r = false → step s = .next { s' with blk := { s.blk with
      state := .idle, rd_r := b, done := true, resp_ok := true, resp_val := Codec.decode b, resp_err := 0#3 } }) ∧
    (s.blk.vfy_r = true →
      Codec.decode b = (if s.params.verifyAgainst = .requested then s.blk.data_r else Codec.sat s.blk.data_r) →
      step s = .next { s' with blk := { s.blk with
        state := .idle, rd_r := b, done := true, resp_ok := true, resp_val := Codec.decode b, resp_err := 0#3 } }) ∧
    (s.blk.vfy_r = true →
      Codec.decode b ≠ (if s.params.verifyAgainst = .requested then s.blk.data_r else Codec.sat s.blk.data_r) →
      step s = .next { s' with blk := { s.blk with
        state := .idle, rd_r := b, done := true, resp_ok := false, resp_val := Codec.decode b, resp_err := 4#3 } })

/-- Rules R76, R160 and R168: a step issues exactly the one primitive of its state, and a step in IDLE issues none. The record
of issued primitives is the model's own (log entry 17), and so is the byte that a `T_REQUEST` shows on it (log entry 30). -/
def Obligations.OnePrimitivePerStep : Prop :=
  ∀ s t : State, s.rstAsserted = false → step s = .next t →
    (s.blk.state = .idle → t.transport.issued = s.transport.issued) ∧
    (s.blk.state ≠ .idle → ∃ prim res, s.blk.primitive s.params = some prim ∧
      t.transport.issued =
        s.transport.issued ++ [{ prim := prim, res := res, taken := t.device.bind (·.taken prim) }])

/-- Rule R30, the column "written by": outside reset, a register changes only in the steps the table names, and only an
accepted WR or WRV writes `enc_r`. -/
def Obligations.RegistersWrittenOnlyAsTabled : Prop :=
  ∀ s t : State, s.rstAsserted = false → step s = .next t →
    (t.blk.op_r ≠ s.blk.op_r ∨ t.blk.ch_r ≠ s.blk.ch_r ∨ t.blk.data_r ≠ s.blk.data_r →
      s.blk.state = .idle ∧ s.requests ≠ []) ∧
    (t.blk.enc_r ≠ s.blk.enc_r →
      s.blk.state = .idle ∧ s.requests ≠ [] ∧ (t.blk.op_r = 0b010#3 ∨ t.blk.op_r = 0b011#3)) ∧
    (t.blk.vfy_r ≠ s.blk.vfy_r → (s.blk.state = .idle ∧ s.requests ≠ []) ∨ s.blk.state = .wEnd) ∧
    (t.blk.status_r ≠ s.blk.status_r → s.blk.state = .wEnd ∨ s.blk.state = .rEnd) ∧
    (t.blk.navail_r ≠ s.blk.navail_r → s.blk.state = .rAvail) ∧
    (t.blk.rd_r ≠ s.blk.rd_r → s.blk.state = .rRead) ∧
    (s.blk.done = true → t.blk.done = false → s.blk.state = .idle ∧ s.requests ≠ []) ∧
    (s.blk.done = false → t.blk.done = true → t.blk.state = .idle) ∧
    (t.blk.response ≠ s.blk.response → t.blk.done = true ∧ t.blk.state = .idle)

/-! ### The transport (41_transport.md section 5) and what stops a run (60_exceptions.md rule R219) -/

/-- Rule R175: the general transport's answer is any byte. After the prepared answers, the answer is the model's free
value `Config.transportAnswer`, of which nothing is known (the model's choice, log entry 5). -/
def Obligations.TransportAnswersAreFree : Prop :=
  ∀ (s : State) (prim : Primitive), s.device = none → s.transport.exclusive = true →
    (∀ (res : Byte) (later : List Answer), s.transport.answers = .complete res :: later →
      performPrimitive prim s = .completes res { s with transport := { s.transport with
        answers := later, issued := s.transport.issued ++ [{ prim := prim, res := res }] } }) ∧
    (s.transport.answers = [] →
      performPrimitive prim s = .completes (Sys2Proof.Config.transportAnswer s.transport.draws)
        { s with transport := { s.transport with
          draws := s.transport.draws + 1
          issued := s.transport.issued ++
            [{ prim := prim, res := Sys2Proof.Config.transportAnswer s.transport.draws }] } })

/-- Rule R177: a transport that never completes the primitive leaves the block stuck. That the model says so with a fault
is its choice (log entry 6). -/
def Obligations.StuckWithoutCompletion : Prop :=
  ∀ (s : State) (later : List Answer), s.rstAsserted = false → s.blk.state ≠ .idle → s.device = none →
    s.transport.exclusive = true → s.transport.answers = .never :: later → step s = .fault .stuckOnTransport

/-- Rule R219, stuck: a step is stuck only in a non-IDLE state whose primitive the transport never completes (the model's
fault, log entry 6). -/
def Obligations.StuckOnlyOnTransport : Prop :=
  ∀ (s : State) (f : Fault), step s = .fault f →
    s.rstAsserted = false ∧ s.blk.state ≠ .idle ∧ s.device = none ∧ ∃ later, s.transport.answers = .never :: later

/-- Rules R178, R219 and R242: what the surroundings must have done for a run to lose its meaning: a completion
without a primitive, another client on the transport, or a primitive that the reference device gives no meaning to. The
three refusals are the model's form of it (log entries 10, 14 and 15). -/
def Obligations.RefusedOnlyForTheSurroundings : Prop :=
  ∀ (s : State) (why : Refusal), step s = .refused why →
    s.rstAsserted = false ∧
    ((why = .completionWithoutPrimitive ∧ s.blk.state = .idle ∧ s.transport.strayDone = true) ∨
      (why = .exclusiveUseBroken ∧ s.blk.state ≠ .idle ∧ s.transport.exclusive = false) ∨
      (why = .outsideReferenceDevice ∧ s.blk.state ≠ .idle ∧ ∃ d prim, s.device = some d ∧
        s.blk.primitive s.params = some prim ∧ d.answer s.params s.transport.draws prim = .noMeaning))

/-- Rules R178 and R219: a run that breaks a duty is refused at the step where it shows (the model's form, log entries 14
and 15). -/
def Obligations.BrokenDutyRefused : Prop :=
  ∀ s : State, s.rstAsserted = false →
    (s.blk.state = .idle → s.transport.strayDone = true → step s = .refused .completionWithoutPrimitive) ∧
    (s.blk.state ≠ .idle → s.transport.exclusive = false → step s = .refused .exclusiveUseBroken)

/-! ### Reset, parameters and ports (10_state.md, 30_encoding.md, 70_reset_and_hazards.md) -/

/-- Rules R30 and R51: the reset value of every register. -/
def Obligations.ResetValues : Prop :=
  State.reset.blk = {
    state := .idle, op_r := 0b000#3, ch_r := 0x00#8, data_r := 0x00#8, enc_r := 0x00#8, vfy_r := false,
    status_r := 0x00#8, navail_r := 0x00#8, rd_r := 0x00#8, done := false, resp_ok := false, resp_val := 0x00#8,
    resp_err := 0b000#3 }

/-- Rules R230 and R231: while `rst = 1` the block is neither ready nor issuing, and after the step every register holds
its reset value, whatever was in progress; the presented requests stay. That one sample of `rst` is
one step is the model's choice (log entry 7); what happens to the transport otherwise is log entry 29. -/
def Obligations.ResetEventClearsBlock : Prop :=
  ∀ (s : State) (carriedOut : Bool) (rest : List ResetSample), s.rst = .asserted carriedOut :: rest →
    s.reqReady = false ∧ s.tValid = false ∧
    ∃ t, step s = .next t ∧ t.blk = State.reset.blk ∧ t.requests = s.requests ∧ t.rst = rest ∧ t.params = s.params ∧
      (s.blk.state = .idle ∨ carriedOut = false → t.transport = s.transport)

/-- Rules R231 and R233: a reset in IDLE leaves the device alone. A reset of an operation makes the addressed register
uncertain, whether the primitive on the port is carried out or not. If it is not, every other register, the pointer and the
buffer stay. If it is, every other register stays too, where the device is in step with the block and either no other master
is about to write or the primitive is no `T_BEGIN`. An uncertain register is one with no cell, whose byte is a draw (the
model's form, log entries 8, 9 and 29). -/
def Obligations.ResetAndTheDevice : Prop :=
  ∀ (s t : State) (carriedOut : Bool) (rest : List ResetSample), s.rst = .asserted carriedOut :: rest →
    step s = .next t →
    (s.blk.state = .idle → t.device = s.device) ∧
    (s.blk.state ≠ .idle → carriedOut = false → ∀ d, s.device = some d → ∃ d', t.device = some d' ∧
      memRead d'.mem (selectByte s.params s.blk.ch_r) = none ∧
      (∀ r, r ≠ selectByte s.params s.blk.ch_r → memRead d'.mem r = memRead d.mem r) ∧
      d'.ptr = d.ptr ∧ d'.rx = d.rx) ∧
    (s.blk.state ≠ .idle → carriedOut = true → ∀ d, s.device = some d → ∃ d', t.device = some d' ∧
      memRead d'.mem (selectByte s.params s.blk.ch_r) = none ∧
      (d.InStep s.params s.blk → d.otherWrites = [] ∨ (s.blk.state ≠ .wBegin ∧ s.blk.state ≠ .rBegin) →
        ∀ r, r ≠ selectByte s.params s.blk.ch_r → memRead d'.mem r = memRead d.mem r))

/-- Rule R47: no step changes a build-time parameter, and whether the reference device is in place stays too. That the
parameters stand in the state is the model's choice (log entry 1). -/
def Obligations.ParametersNeverChange : Prop :=
  ∀ s t : State, step s = .next t → t.params = s.params ∧ (t.device = none ↔ s.device = none)

/-- Rule R8: the register-select bytes of the block as built differ. Their values are free (the model's form, log
entry 1). -/
def Obligations.SelectBytesDiffer : Prop :=
  State.reset.params.regSel0 ≠ State.reset.params.regSel1

/-- Rules R97 and R99: `req_ready` and the transport port in each state, outside reset. -/
def Obligations.PortsOfEachState : Prop :=
  ∀ s : State, s.rstAsserted = false →
    (s.blk.state = .idle → s.reqReady = true ∧ s.tValid = false ∧ s.transportPort = none) ∧
    (s.blk.state ≠ .idle → s.reqReady = false ∧ s.tValid = true) ∧
    (s.blk.state = .wBegin ∨ s.blk.state = .rBegin →
      s.transportPort = some { t_op := 0b000#3, t_a := 0x48#8, t_n := 0x00#8, t_stop := false }) ∧
    (s.blk.state = .wSel ∨ s.blk.state = .rSel → s.transportPort =
      some { t_op := 0b001#3, t_n := 0x00#8, t_stop := false,
             t_a := if s.blk.ch_r.getLsbD 0 = true then s.params.regSel1 else s.params.regSel0 }) ∧
    (s.blk.state = .wData →
      s.transportPort = some { t_op := 0b001#3, t_a := s.blk.enc_r, t_n := 0x00#8, t_stop := false }) ∧
    (s.blk.state = .wEnd →
      s.transportPort = some { t_op := 0b010#3, t_a := 0x00#8, t_n := 0x00#8, t_stop := true }) ∧
    (s.blk.state = .rEnd →
      s.transportPort = some { t_op := 0b010#3, t_a := 0x00#8, t_n := 0x00#8, t_stop := false }) ∧
    (s.blk.state = .rReq →
      s.transportPort = some { t_op := 0b011#3, t_a := 0x48#8, t_n := 0x01#8, t_stop := true }) ∧
    (s.blk.state = .rAvail →
      s.transportPort = some { t_op := 0b100#3, t_a := 0x00#8, t_n := 0x00#8, t_stop := false }) ∧
    (s.blk.state = .rRead →
      s.transportPort = some { t_op := 0b101#3, t_a := 0x00#8, t_n := 0x00#8, t_stop := false })

/-- Rule R241: the host has a response to read exactly while `done = 1`, and it is what the response registers
hold. That a read without `done` gives nothing is the model's form of rule R241's "no value" (log entry 20). -/
def Obligations.ResponseOnlyWhenDone : Prop :=
  ∀ s : State,
    (s.blk.done = false → s.readResponse = none) ∧
    (s.blk.done = true →
      s.readResponse = some { ok := s.blk.resp_ok, val := s.blk.resp_val, err := s.blk.resp_err })

/-- Rule R98: the response holds from `finish` until the next acceptance. The step it is about is the wait in IDLE, which
is the model's own (log entry 4: rule R160 has no such step). Its premise `Inv` rules out states with a
response and an operation in progress, which no run reaches. -/
def Obligations.ResponseHoldsUntilAcceptance : Prop :=
  ∀ s t : State, s.Inv → s.blk.done = true → s.requests = [] → s.rstAsserted = false → step s = .next t →
    t.blk = s.blk

/-! ### Invariants -/

/-- The machine right after reset meets the invariant. Its part about the device holds because no reference device is in
place at reset, which is the model's choice (log entry 21). -/
def Obligations.InvariantAtReset : Prop := State.reset.Inv

/-- Every step keeps the invariant: an operation in progress has no response; `enc_r`, `vfy_r` and the channel are as
rules R36, R37 and R152 say in each state; every response is a row of rule R163's table; and the reference device's
registers stay the two of rule R61, in canonical form. -/
def Obligations.StepKeepsInvariant : Prop :=
  ∀ s t : State, s.Inv → step s = .next t → t.Inv

/-- While the host and the platform keep their duties and the transport completes what it is given (rules R177, R178,
R242), every step answers a next state, and that stays so: no request and no result stops the block (rules R207, R219). The step in
IDLE with nothing presented is the model's own (log entry 4), and so is the step of a sample of `rst` (log entry 7). -/
def Obligations.NoStopUnderTheDuties : Prop :=
  ∀ s : State, s.DutiesHeld → s.TransportCompletes →
    ∃ t, step s = .next t ∧ t.DutiesHeld ∧ t.TransportCompletes

/-- Rules R250 and R251: under the same duties an operation in progress ends, with a response, within 10 steps. -/
def Obligations.OperationEndsWithinTenSteps : Prop :=
  ∀ s : State, s.rst = [] → s.DutiesHeld → s.TransportCompletes → s.blk.state ≠ .idle →
    ∃ k t, k ≤ 10 ∧ run k s = .next t ∧ t.blk.state = .idle ∧ t.blk.done = true

/-- Rules R46 and R50: no information passes from one operation to the next. Two machines that differ only in the block's
registers, both IDLE with a request presented, look the same to the host and to the transport ever after. -/
def Obligations.NothingCrossesOperations : Prop :=
  ∀ (s : State) (b : Block) (k : Nat),
    s.blk.state = .idle → b.state = .idle → s.rstAsserted = false → s.requests ≠ [] →
    SameOutside (run (k + 1) s) (run (k + 1) { s with blk := b })

/-- The step lemma of rule R50: if two machines have the same surroundings and registers that agree in all that can still
be seen, then their next states do too, or both stop alike. So the stale registers of an earlier operation never come back
into view. -/
def Obligations.StepKeepsAgreement : Prop :=
  ∀ (s : State) (b : Block), s.blk.AgreesWith b → AgreeingOutcomes (step s) (step { s with blk := b })

/-- Rules R156 and R127: with `VERIFY_AGAINST = REQUESTED` a WRV of -128 never reports success. -/
def Obligations.VerifyOfMinus128NeverSucceeds : Prop :=
  ∀ s t : State, s.Inv → s.rstAsserted = false → s.params.verifyAgainst = .requested →
    s.blk.state ≠ .idle → s.blk.op_r = 0b011#3 → s.blk.data_r = 0x80#8 →
    step s = .next t → t.blk.done = true → t.blk.resp_ok = false

/-! ### Whole operations under the general transport (rule R163) -/

/-- Rules R155 and R163: a WR from acceptance to response. It issues the four primitives of the write cycle, and succeeds
exactly when the status is 0. -/
def Obligations.WrOperation : Prop :=
  ∀ (s : State) (data ch a b c status : Byte), (ch = 0x00#8 ∨ ch = 0x01#8) →
    s.Offers (encode (.wr data ch)) → s.Answers [a, b, c, status] →
    run 5 s = .next { s with
      requests := s.requests.tail
      transport := s.transport.after 4
        (issuesOf (writePrimitives s.params ch (Codec.encode data)) [a, b, c, status])
      blk := { s.blk with
        state := .idle, op_r := 0b010#3, ch_r := ch, data_r := data, enc_r := Codec.encode data, vfy_r := false,
        status_r := status, done := true, resp_ok := decide (status = 0x00#8), resp_val := 0x00#8,
        resp_err := if status = 0x00#8 then 0#3 else 2#3 } }

/-- Rules R157, R163 and R166: an RD from acceptance to response. The status of its pointer write makes no difference; a
count of 0 gives READ_UNAVAILABLE after five primitives, any other count the decoded byte after six. -/
def Obligations.RdOperation : Prop :=
  ∀ (s : State) (data ch a b status q count byte : Byte), (ch = 0x00#8 ∨ ch = 0x01#8) →
    s.Offers (encode (.rd data ch)) →
    (count = 0x00#8 → s.Answers [a, b, status, q, count] →
      run 6 s = .next { s with
        requests := s.requests.tail
        transport := s.transport.after 5 (issuesOf (pollPrimitives s.params ch) [a, b, status, q, count])
        blk := { s.blk with
          state := .idle, op_r := 0b100#3, ch_r := ch, data_r := data, vfy_r := false, status_r := status,
          navail_r := count, done := true, resp_ok := false, resp_val := 0x80#8, resp_err := 3#3 } }) ∧
    (count ≠ 0x00#8 → s.Answers [a, b, status, q, count, byte] →
      run 7 s = .next { s with
        requests := s.requests.tail
        transport := s.transport.after 6
          (issuesOf (pollPrimitives s.params ch ++ [.tRead]) [a, b, status, q, count, byte])
        blk := { s.blk with
          state := .idle, op_r := 0b100#3, ch_r := ch, data_r := data, vfy_r := false, status_r := status,
          navail_r := count, rd_r := byte, done := true, resp_ok := true, resp_val := Codec.decode byte,
          resp_err := 0#3 } })

/-- Rules R156, R163, R164 and R165: a WRV from acceptance to response, on its three paths: a failed write and no read, no
byte read back, and a byte read back, which the response compares with the target. -/
def Obligations.WrvOperation : Prop :=
  ∀ (s : State) (data ch a b c status a' b' status' q count byte : Byte), (ch = 0x00#8 ∨ ch = 0x01#8) →
    s.Offers (encode (.wrv data ch)) →
    (status ≠ 0x00#8 → s.Answers [a, b, c, status] →
      run 5 s = .next { s with
        requests := s.requests.tail
        transport := s.transport.after 4
          (issuesOf (writePrimitives s.params ch (Codec.encode data)) [a, b, c, status])
        blk := { s.blk with
          state := .idle, op_r := 0b011#3, ch_r := ch, data_r := data, enc_r := Codec.encode data, vfy_r := false,
          status_r := status, done := true, resp_ok := false, resp_val := 0x00#8, resp_err := 2#3 } }) ∧
    (status = 0x00#8 → count = 0x00#8 → s.Answers [a, b, c, status, a', b', status', q, count] →
      run 10 s = .next { s with
        requests := s.requests.tail
        transport := s.transport.after 9
          (issuesOf (writePrimitives s.params ch (Codec.encode data) ++ pollPrimitives s.params ch)
            [a, b, c, status, a', b', status', q, count])
        blk := { s.blk with
          state := .idle, op_r := 0b011#3, ch_r := ch, data_r := data, enc_r := Codec.encode data, vfy_r := true,
          status_r := status', navail_r := count, done := true, resp_ok := false, resp_val := 0x80#8,
          resp_err := 3#3 } }) ∧
    (status = 0x00#8 → count ≠ 0x00#8 → s.Answers [a, b, c, status, a', b', status', q, count, byte] →
      run 11 s = .next { s with
        requests := s.requests.tail
        transport := s.transport.after 10
          (issuesOf (writePrimitives s.params ch (Codec.encode data) ++ pollPrimitives s.params ch ++ [.tRead])
            [a, b, c, status, a', b', status', q, count, byte])
        blk := { s.blk with
          state := .idle, op_r := 0b011#3, ch_r := ch, data_r := data, enc_r := Codec.encode data, vfy_r := true,
          status_r := status', navail_r := count, rd_r := byte, done := true,
          resp_ok := decide (Codec.decode byte =
            if s.params.verifyAgainst = .requested then data else Codec.sat data),
          resp_val := Codec.decode byte,
          resp_err := if Codec.decode byte = (if s.params.verifyAgainst = .requested then data else Codec.sat data)
            then 0#3 else 4#3 } })

/-- Rules R105 to R108 and R170: the frames the primitives of the cycles appear as on the bus, whatever came later on
record. The read frame is that of the four primitives up to `T_REQUEST`: with the byte `T_READ` returned after any count but
0, with the byte `T_REQUEST` was seen to take, and with a byte not seen where a reset left it unread. The address bytes and the
places of `A` and `N` are general knowledge in the spec (the model's log entry 17); a byte or an acknowledge bit that is not
seen, and a read with count 0, are shown in the model's own form (log entry 30). -/
def Obligations.CyclesAppearAsFrames : Prop :=
  ∀ (p : Sys2Proof.Config.Params) (ch d d' v a b c status a' b' status' q count : Byte) (later : List Issue),
    let pointer := [Primitive.tBegin 0x48#7, .tWrite (selectByte p ch), .tEnd false]
    let request : Primitive := .tRequest 0x48#7 0x01#8 true
    let write := fun bit : BusSymbol =>
      [.start, .transfer 0x90#8, bit, .transfer (selectByte p ch), bit, .transfer d, bit, .stop]
    let read := fun bit data : BusSymbol =>
      [.start, .transfer 0x90#8, bit, .transfer (selectByte p ch), bit,
        .repeatedStart, .transfer 0x91#8, .ack, data, .nack, .stop]
    busFrames (issuesOf (writePrimitives p ch d) [a, b, c, status] ++ later) =
      write (if status = 0x00#8 then .ack else .unseen) ++ busFrames later ∧
    (count ≠ 0x00#8 →
      busFrames (issuesOf (pollPrimitives p ch ++ [.tRead]) [a', b', status', q, count, d'] ++ later) =
        read (if status' = 0x00#8 then .ack else .unseen) (.transfer d') ++ busFrames later ∧
      busFrames (issuesOf (writePrimitives p ch d ++ pollPrimitives p ch ++ [.tRead])
          [a, b, c, 0x00#8, a', b', 0x00#8, q, count, d'] ++ later) =
        write .ack ++ read .ack (.transfer d') ++ busFrames later ∧
      (later.head?.map Issue.prim ≠ some .tRead →
        busFrames (issuesOf (pollPrimitives p ch) [a', b', status', q, count] ++ later) =
          read (if status' = 0x00#8 then .ack else .unseen) .unseen ++ busFrames later)) ∧
    (later.head?.map Issue.prim ≠ some .tAvailable →
      busFrames (issuesOf (pointer ++ [request]) [a', b', status', q] ++ later) =
        read (if status' = 0x00#8 then .ack else .unseen) .unseen ++ busFrames later) ∧
    busFrames (issuesOf pointer [a', b', status'] ++ { prim := request, res := q, taken := some v } :: later) =
      read (if status' = 0x00#8 then .ack else .unseen) (.transfer v) ++ busFrames later ∧
    busFrames (issuesOf (pollPrimitives p ch) [a', b', status', q, 0x00#8] ++ later) =
      [.start, .transfer 0x90#8, if status' = 0x00#8 then .ack else .unseen, .transfer (selectByte p ch),
        if status' = 0x00#8 then .ack else .unseen, .repeatedStart, .transfer 0x91#8, .unstated, .stop] ++ busFrames later

/-! ### The reference device (20_memory.md rule R80) -/

/-- Rules R61, R62 and R80: the W_END step stores the encoded byte in the register of the channel, and every other
register reads as before. -/
def Obligations.WriteEndStores : Prop :=
  ∀ (s : State) (d : RefDevice), s.rstAsserted = false → s.blk.state = .wEnd → s.transport.exclusive = true →
    s.device = some d → d.InStep s.params s.blk →
    ∃ t d', step s = .next t ∧ t.device = some d' ∧ d'.ptr = selectByte s.params s.blk.ch_r ∧
      memRead d'.mem (selectByte s.params s.blk.ch_r) = some s.blk.enc_r ∧
      ∀ r, r ≠ selectByte s.params s.blk.ch_r → memRead d'.mem r = memRead d.mem r

/-- Rule R73: outside reset, with no other bus master writing, a step in any state but W_END leaves every register whose
byte is certain as it was. Which registers are certain is the model's form (log entry 9). -/
def Obligations.OnlyWriteEndStores : Prop :=
  ∀ (s t : State) (d : RefDevice), s.rstAsserted = false → s.blk.state ≠ .wEnd → s.device = some d →
    d.otherWrites = [] → step s = .next t →
    ∃ d', t.device = some d' ∧ ∀ r v, memRead d.mem r = some v → memRead d'.mem r = some v

/-- Rules R77 and R80: with no other bus master, an RD adds the byte `v` of its channel's register to the receive buffer and
answers the oldest unread byte, decoded: `v` itself, unless a reset left bytes unread (rule R231, T-RST-3). The corrupting
variant flips the bits of `corrupt` in it (log entry 13). A register whose byte is certain stays as it is. An uncertain
register is drawn, which is the model's free value `Config.deviceByte` (log entry 9), and keeps the drawn byte. A buffer that
holds 255 bytes or more is left out: its count is a free value (log entry 11). -/
def Obligations.ReadReturnsRegister : Prop :=
  ∀ (s : State) (d : RefDevice) (data ch : Byte), (ch = 0x00#8 ∨ ch = 0x01#8) →
    s.Offers (encode (.rd data ch)) → s.transport.exclusive = true → s.device = some d →
    d.otherWrites = [] → d.rx.length < 255 →
    ∃ t d' v oldest unread, run 7 s = .next t ∧ t.blk.state = .idle ∧ t.blk.done = true ∧
      d.rx ++ [v] = oldest :: unread ∧ t.blk.Responds true (Codec.decode (oldest ^^^ d.corrupt)) 0#3 ∧
      t.device = some d' ∧ d'.rx = unread ∧ memRead d'.mem (selectByte s.params ch) = some v ∧
      (∀ r, r ≠ selectByte s.params ch → memRead d'.mem r = memRead d.mem r) ∧
      (∀ x, memRead d.mem (selectByte s.params ch) = some x → v = x ∧ d'.mem = d.mem) ∧
      (memRead d.mem (selectByte s.params ch) = none → ∃ n, v = Sys2Proof.Config.deviceByte n)

/-- Rule R80, the corrupting variant, with rules R159 and R205: a WRV reads its byte back with the bits of `corrupt` flipped
(the model's form of the variant, log entry 13). It reports success exactly when that byte decodes to the target, and
VERIFY_MISMATCH otherwise, and the device holds the written byte either way (log entry 26). -/
def Obligations.CorruptedReadBack : Prop :=
  ∀ (s : State) (d : RefDevice) (data ch : Byte), (ch = 0x00#8 ∨ ch = 0x01#8) →
    s.Offers (encode (.wrv data ch)) → s.transport.exclusive = true → s.device = some d →
    d.otherWrites = [] → d.rx = [] →
    ∃ t d', run 11 s = .next t ∧ t.blk.state = .idle ∧ t.blk.done = true ∧
      t.blk.resp_val = Codec.decode (Codec.encode data ^^^ d.corrupt) ∧
      t.device = some d' ∧ memRead d'.mem (selectByte s.params ch) = some (Codec.encode data) ∧
      (Codec.decode (Codec.encode data ^^^ d.corrupt) =
          (if s.params.verifyAgainst = .requested then data else Codec.sat data) →
        t.blk.resp_ok = true ∧ t.blk.resp_err = 0#3) ∧
      (Codec.decode (Codec.encode data ^^^ d.corrupt) ≠
          (if s.params.verifyAgainst = .requested then data else Codec.sat data) →
        t.blk.resp_ok = false ∧ t.blk.resp_err = 4#3)

/-- Rule R245: with the reference device and no other bus master, an RD of a channel accepted after a WR, or a WRV, to
that channel answers the saturated Command. A WRV of -128 under `VERIFY_AGAINST = REQUESTED` ends in
VERIFY_MISMATCH, and that the reference device then still holds the written byte, which rule R205 calls uncertain, is the
model's reading of rule R80 (log entry 26). -/
def Obligations.WriteThenRead : Prop :=
  ∀ (s : State) (d : RefDevice) (data y ch : Byte) (later : List ReqWord), (ch = 0x00#8 ∨ ch = 0x01#8) →
    s.Ready → s.rst = [] → s.transport.exclusive = true → s.device = some d →
    d.corrupt = 0x00#8 → d.otherWrites = [] → d.rx = [] →
    (s.requests = encode (.wr data ch) :: encode (.rd y ch) :: later →
      ∃ t, run 12 s = .next t ∧ t.blk.state = .idle ∧ t.blk.done = true ∧
        t.blk.Responds true (Codec.sat data) 0#3 ∧ t.requests = later) ∧
    (s.requests = encode (.wrv data ch) :: encode (.rd y ch) :: later →
      ∃ t, run 18 s = .next t ∧ t.blk.state = .idle ∧ t.blk.done = true ∧
        t.blk.Responds true (Codec.sat data) 0#3 ∧ t.requests = later)

/-- Rules R71 and R244: another bus master that writes the byte `x` to the channel's register between the two cycles of a
WRV is what the verify sees. When such a write lands is the model's choice (log entry 12). -/
def Obligations.VerifySeesOtherMaster : Prop :=
  ∀ (s : State) (d : RefDevice) (data ch x : Byte) (later : List (List (Bool × Byte))), (ch = 0x00#8 ∨ ch = 0x01#8) →
    s.Offers (encode (.wrv data ch)) → s.transport.exclusive = true → s.device = some d →
    d.corrupt = 0x00#8 → d.rx = [] → d.otherWrites = [] :: [(ch.getLsbD 0, x)] :: later →
    ∃ t, run 11 s = .next t ∧ t.blk.state = .idle ∧ t.blk.done = true ∧ t.blk.resp_val = Codec.decode x ∧
      (Codec.decode x = t.blk.verifyTarget s.params → t.blk.resp_ok = true ∧ t.blk.resp_err = 0#3) ∧
      (Codec.decode x ≠ t.blk.verifyTarget s.params → t.blk.resp_ok = false ∧ t.blk.resp_err = 4#3)
end

