-- ==== Sys2Proof/Laws/Memory.lean ====
section
/-! SUPPORT. The laws of the device register space: read after write, and every operation keeps the canonical form. -/

namespace Sys2Proof.Machine

@[simp] theorem memRead_memWrite_same (m : List Host.Cell) (a v : Byte) : memRead (memWrite m a v) a = some v := by
  induction m with
  | nil => simp [memWrite, memRead]
  | cons c rest ih =>
    obtain ⟨k, x⟩ := c
    simp only [memWrite]
    split
    · simp [memRead]
    · split
      · simp_all [memRead]
      · rename_i h; simp [memRead, Ne.symm h, ih]

theorem memRead_memWrite_other (m : List Host.Cell) (a b v : Byte) (h : b ≠ a) :
    memRead (memWrite m a v) b = memRead m b := by
  have hn : a.toNat ≠ b.toNat := fun e => h (BitVec.eq_of_toNat_eq e.symm)
  induction m with
  | nil => simp [memWrite, memRead, hn]
  | cons c rest ih =>
    obtain ⟨k, x⟩ := c
    simp only [memWrite]
    split
    · simp [memRead, hn]
    · split
      · rename_i e; subst e; simp [memRead, hn]
      · simp only [memRead, ih]

@[simp] theorem memRead_memForget_same (m : List Host.Cell) (a : Byte) : memRead (memForget m a) a = none := by
  induction m with
  | nil => rfl
  | cons c rest ih =>
    obtain ⟨k, x⟩ := c
    simp only [memForget]
    split
    · exact ih
    · rename_i h; simp [memRead, h, ih]

theorem memRead_memForget_other (m : List Host.Cell) (a b : Byte) (h : b ≠ a) :
    memRead (memForget m a) b = memRead m b := by
  have hn : a.toNat ≠ b.toNat := fun e => h (BitVec.eq_of_toNat_eq e.symm)
  induction m with
  | nil => rfl
  | cons c rest ih =>
    obtain ⟨k, x⟩ := c
    simp only [memForget]
    split
    · rename_i e; subst e; simp [memRead, hn, ih]
    · simp only [memRead, ih]

theorem Memory.wfFrom_mono {lo lo' : Nat} (h : lo' ≤ lo) :
    ∀ {m : List Host.Cell}, Memory.wfFrom lo m = true → Memory.wfFrom lo' m = true
  | [], _ => rfl
  | (a, v) :: rest, hm => by
    simp only [Memory.wfFrom, Bool.and_eq_true, decide_eq_true_eq] at hm ⊢
    exact ⟨⟨by omega, hm.1.2⟩, hm.2⟩

theorem Memory.wfFrom_memWrite (a v : Byte) : ∀ (m : List Host.Cell) {lo : Nat}, lo ≤ a.toNat →
    Memory.wfFrom lo m = true → Memory.wfFrom lo (memWrite m a v) = true
  | [], lo, h, _ => by
    have := a.isLt
    simp only [memWrite, Memory.wfFrom, h, decide_true, Bool.true_and, Bool.and_true, decide_eq_true_eq]
    omega
  | (k, x) :: rest, lo, h, hm => by
    have ha := a.isLt
    simp only [Memory.wfFrom, Bool.and_eq_true, decide_eq_true_eq] at hm
    simp only [memWrite]
    split
    · simp only [Memory.wfFrom, Bool.and_eq_true, decide_eq_true_eq]
      refine ⟨⟨h, by omega⟩, ⟨by omega, hm.1.2⟩, hm.2⟩
    · split
      · simpa only [Memory.wfFrom, Bool.and_eq_true, decide_eq_true_eq] using hm
      · simp only [Memory.wfFrom, Bool.and_eq_true, decide_eq_true_eq]
        exact ⟨hm.1, Memory.wfFrom_memWrite a v rest (by omega) hm.2⟩

/-- A write keeps the canonical form. -/
theorem Memory.wf_memWrite (m : List Host.Cell) (a v : Byte) (h : Memory.wf m = true) :
    Memory.wf (memWrite m a v) = true :=
  Memory.wfFrom_memWrite a v m (Nat.zero_le _) h

theorem Memory.wfFrom_memForget (a : Byte) : ∀ (m : List Host.Cell) {lo : Nat},
    Memory.wfFrom lo m = true → Memory.wfFrom lo (memForget m a) = true
  | [], _, _ => rfl
  | (k, x) :: rest, lo, hm => by
    simp only [Memory.wfFrom, Bool.and_eq_true, decide_eq_true_eq] at hm
    simp only [memForget]
    split
    · exact Memory.wfFrom_mono (by omega) (Memory.wfFrom_memForget a rest hm.2)
    · simp only [Memory.wfFrom, Bool.and_eq_true, decide_eq_true_eq]
      exact ⟨hm.1, Memory.wfFrom_memForget a rest hm.2⟩

/-- Making a register uncertain keeps the canonical form. -/
theorem Memory.wf_memForget (m : List Host.Cell) (a : Byte) (h : Memory.wf m = true) :
    Memory.wf (memForget m a) = true :=
  Memory.wfFrom_memForget a m h

/-- Other masters' writes keep the canonical form. -/
theorem Memory.wf_otherMasterWrites (p : Sys2Proof.Config.Params) : ∀ (ws : List (Bool × Byte)) (m : List Host.Cell),
    Memory.wf m = true → Memory.wf (otherMasterWrites p ws m) = true
  | [], _, h => h
  | (c, v) :: rest, m, h => Memory.wf_otherMasterWrites p rest _ (Memory.wf_memWrite m (registerOf p c) v h)

/-- A cell after a write is the written one or was there before. -/
theorem mem_memWrite {c : Host.Cell} : ∀ {m : List Host.Cell} {a v : Byte}, c ∈ memWrite m a v → c = (a.toNat, v) ∨ c ∈ m
  | [], a, v, h => by simpa [memWrite] using h
  | (k, x) :: rest, a, v, h => by
    simp only [memWrite] at h
    split at h
    · simpa using h
    · split at h
      · rename_i e; subst e
        rcases List.mem_cons.1 h with h | h
        · exact .inl h
        · exact .inr (List.mem_cons_of_mem _ h)
      · rcases List.mem_cons.1 h with h | h
        · exact .inr (h ▸ List.mem_cons_self)
        · rcases mem_memWrite h with h | h
          · exact .inl h
          · exact .inr (List.mem_cons_of_mem _ h)

/-- Making a register uncertain adds no cell. -/
theorem mem_memForget {c : Host.Cell} : ∀ {m : List Host.Cell} {a : Byte}, c ∈ memForget m a → c ∈ m
  | [], _, h => h
  | (k, x) :: rest, a, h => by
    simp only [memForget] at h
    split at h
    · exact List.mem_cons_of_mem _ (mem_memForget h)
    · rcases List.mem_cons.1 h with h | h
      · exact h ▸ List.mem_cons_self
      · exact List.mem_cons_of_mem _ (mem_memForget h)

end Sys2Proof.Machine
end

