-- ==== Sys2Proof/Laws/State.lean ====
section
/-! SUPPORT. The field lemmas of every update of the state, so that no later proof unfolds one. -/

namespace Sys2Proof.Machine

section Latch
variable (b : Block) (op : BitVec 3) (ch data : Byte)

@[simp] theorem Block.latch_state : (b.latch op ch data).state = b.state := rfl
@[simp] theorem Block.latch_op_r : (b.latch op ch data).op_r = op := rfl
@[simp] theorem Block.latch_ch_r : (b.latch op ch data).ch_r = ch := rfl
@[simp] theorem Block.latch_data_r : (b.latch op ch data).data_r = data := rfl
@[simp] theorem Block.latch_enc_r : (b.latch op ch data).enc_r = b.enc_r := rfl
@[simp] theorem Block.latch_vfy_r : (b.latch op ch data).vfy_r = false := rfl
@[simp] theorem Block.latch_status_r : (b.latch op ch data).status_r = b.status_r := rfl
@[simp] theorem Block.latch_navail_r : (b.latch op ch data).navail_r = b.navail_r := rfl
@[simp] theorem Block.latch_rd_r : (b.latch op ch data).rd_r = b.rd_r := rfl
@[simp] theorem Block.latch_done : (b.latch op ch data).done = false := rfl
@[simp] theorem Block.latch_resp_ok : (b.latch op ch data).resp_ok = b.resp_ok := rfl
@[simp] theorem Block.latch_resp_val : (b.latch op ch data).resp_val = b.resp_val := rfl
@[simp] theorem Block.latch_resp_err : (b.latch op ch data).resp_err = b.resp_err := rfl
end Latch

section Finish
variable (b : Block) (ok : Bool) (val : Byte) (err : ErrorCode)

@[simp] theorem Block.finish_state : (b.finish ok val err).state = .idle := rfl
@[simp] theorem Block.finish_op_r : (b.finish ok val err).op_r = b.op_r := rfl
@[simp] theorem Block.finish_ch_r : (b.finish ok val err).ch_r = b.ch_r := rfl
@[simp] theorem Block.finish_data_r : (b.finish ok val err).data_r = b.data_r := rfl
@[simp] theorem Block.finish_enc_r : (b.finish ok val err).enc_r = b.enc_r := rfl
@[simp] theorem Block.finish_vfy_r : (b.finish ok val err).vfy_r = b.vfy_r := rfl
@[simp] theorem Block.finish_status_r : (b.finish ok val err).status_r = b.status_r := rfl
@[simp] theorem Block.finish_navail_r : (b.finish ok val err).navail_r = b.navail_r := rfl
@[simp] theorem Block.finish_rd_r : (b.finish ok val err).rd_r = b.rd_r := rfl
@[simp] theorem Block.finish_done : (b.finish ok val err).done = true := rfl
@[simp] theorem Block.finish_resp_ok : (b.finish ok val err).resp_ok = ok := rfl
@[simp] theorem Block.finish_resp_val : (b.finish ok val err).resp_val = val := rfl
@[simp] theorem Block.finish_resp_err : (b.finish ok val err).resp_err = err.code := rfl
end Finish

section Surroundings
variable (s : State)

@[simp] theorem State.tick_blk : s.tick.blk = s.blk := rfl
@[simp] theorem State.tick_params : s.tick.params = s.params := rfl
@[simp] theorem State.tick_rst : s.tick.rst = s.rst.tail := rfl
@[simp] theorem State.tick_requests : s.tick.requests = s.requests := rfl
@[simp] theorem State.tick_transport : s.tick.transport = s.transport := rfl
@[simp] theorem State.tick_device : s.tick.device = s.device := rfl
@[simp] theorem State.tick_presented : s.tick.presented = s.presented := rfl

variable (act : Block → Block)

@[simp] theorem State.accept_blk : (s.accept act).blk = act s.blk := rfl
@[simp] theorem State.accept_params : (s.accept act).params = s.params := rfl
@[simp] theorem State.accept_rst : (s.accept act).rst = s.rst := rfl
@[simp] theorem State.accept_requests : (s.accept act).requests = s.requests.tail := rfl
@[simp] theorem State.accept_transport : (s.accept act).transport = s.transport := rfl
@[simp] theorem State.accept_device : (s.accept act).device = s.device := rfl

variable (prim : Primitive) (res : Byte) (taken : Option Byte) (drew : Bool)

@[simp] theorem State.record_blk : (s.record prim res taken drew).blk = s.blk := rfl
@[simp] theorem State.record_params : (s.record prim res taken drew).params = s.params := rfl
@[simp] theorem State.record_rst : (s.record prim res taken drew).rst = s.rst := rfl
@[simp] theorem State.record_requests : (s.record prim res taken drew).requests = s.requests := rfl
@[simp] theorem State.record_device : (s.record prim res taken drew).device = s.device := rfl
@[simp] theorem State.record_answers : (s.record prim res taken drew).transport.answers = s.transport.answers := rfl
@[simp] theorem State.record_exclusive : (s.record prim res taken drew).transport.exclusive = s.transport.exclusive := rfl
@[simp] theorem State.record_strayDone : (s.record prim res taken drew).transport.strayDone = s.transport.strayDone := rfl
@[simp] theorem State.record_issued :
    (s.record prim res taken drew).transport.issued = s.transport.issued ++ [{ prim := prim, res := res, taken := taken }] := rfl

@[simp] theorem State.forgetAddressed_blk : s.forgetAddressed.blk = s.blk := rfl
@[simp] theorem State.forgetAddressed_params : s.forgetAddressed.params = s.params := rfl
@[simp] theorem State.forgetAddressed_rst : s.forgetAddressed.rst = s.rst := rfl
@[simp] theorem State.forgetAddressed_requests : s.forgetAddressed.requests = s.requests := rfl
@[simp] theorem State.forgetAddressed_transport : s.forgetAddressed.transport = s.transport := rfl

variable (w : ReqWord)

@[simp] theorem State.presenting_requests : (s.presenting w).requests = w :: s.requests := rfl
@[simp] theorem State.presenting_params : (s.presenting w).params = s.params := rfl
@[simp] theorem State.presenting_device : (s.presenting w).device = s.device := rfl
@[simp] theorem State.presenting_rst :
    (s.presenting w).rst = bif s.rstAsserted then .released :: s.rst else s.rst := rfl
@[simp] theorem State.presenting_state : (s.presenting w).blk.state = .idle := rfl
@[simp] theorem State.presenting_strayDone : (s.presenting w).transport.strayDone = false := rfl
end Surroundings

end Sys2Proof.Machine
end

