-- ==== Sys2Proof/Laws/Device.lean ====
section
/-! SUPPORT. The answers of the reference device, one lemma per primitive, and what they keep (20_memory.md rule R80). -/

namespace Sys2Proof.Machine

open Sys2Proof.Config (Params)

variable {p : Params} {n : Nat} {d : RefDevice}

/-- The register-select byte of any channel field names a register that exists (rule R62). -/
@[simp] theorem isRegister_selectByte (p : Params) (ch : Byte) : isRegister p (selectByte p ch) = true := by
  unfold selectByte; cases ch.getLsbD 0 <;> simp [isRegister, registerOf]

theorem RefDevice.answer_tBegin :
    d.answer p n (.tBegin Sys2Proof.Config.devAddr) =
      .answers (Sys2Proof.Config.transportAnswer n) { d.otherMaster p with txn := some [] } true := by
  simp [RefDevice.answer, RefDevice.begins]

theorem RefDevice.answer_tWrite {bytes : List Byte} (h : d.txn = some bytes) (b8 : Byte) :
    d.answer p n (.tWrite b8) =
      .answers (Sys2Proof.Config.transportAnswer n) { d with txn := some (bytes ++ [b8]) } true := by
  simp only [RefDevice.answer, RefDevice.writes, h]

theorem RefDevice.answer_endWrite {r b : Byte} (h : d.txn = some [r, b]) (hr : isRegister p r = true) :
    d.answer p n (.tEnd true) = .answers 0#8 { d with mem := memWrite d.mem r b, ptr := r, txn := none } false := by
  simp only [RefDevice.answer, RefDevice.endsWrite, h, hr, if_true]

theorem RefDevice.answer_endPointer {r : Byte} (h : d.txn = some [r]) :
    d.answer p n (.tEnd false) = .answers 0#8 { d with ptr := r, txn := none } false := by
  simp only [RefDevice.answer, RefDevice.endsPointer, h]

theorem RefDevice.answer_request_known {v : Byte} (hr : isRegister p d.ptr = true) (hm : memRead d.mem d.ptr = some v) :
    d.answer p n (.tRequest Sys2Proof.Config.devAddr Sys2Proof.Config.readCount true) =
      .answers (Sys2Proof.Config.transportAnswer n) { d with rx := d.rx ++ [v] } true := by
  simp [RefDevice.answer, RefDevice.requests, hr, hm]

theorem RefDevice.answer_request_drawn (hr : isRegister p d.ptr = true) (hm : memRead d.mem d.ptr = none) :
    d.answer p n (.tRequest Sys2Proof.Config.devAddr Sys2Proof.Config.readCount true) =
      .answers (Sys2Proof.Config.transportAnswer n)
        { d with rx := d.rx ++ [Sys2Proof.Config.deviceByte n],
                 mem := memWrite d.mem d.ptr (Sys2Proof.Config.deviceByte n) } true := by
  simp [RefDevice.answer, RefDevice.requests, hr, hm]

theorem RefDevice.answer_available (h : d.rx.length < 256) :
    d.answer p n .tAvailable = .answers (BitVec.ofNat 8 d.rx.length) d false := by
  simp only [RefDevice.answer, RefDevice.counts, h, if_true]

theorem RefDevice.answer_available_free (h : ¬ d.rx.length < 256) :
    d.answer p n .tAvailable = .answers (Sys2Proof.Config.transportAnswer n) d true := by
  simp only [RefDevice.answer, RefDevice.counts, h, if_false]

theorem RefDevice.answer_tRead {b : Byte} {rest : List Byte} (h : d.rx = b :: rest) :
    d.answer p n .tRead = .answers (b ^^^ d.corrupt) { d with rx := rest } false := by
  simp only [RefDevice.answer, RefDevice.reads, h]

/-- Everything an answer of the reference device can do to the device registers: nothing, a stored byte for a register
that exists, or other masters' writes. -/
inductive RefDevice.Stores (p : Params) (d d' : RefDevice) : Prop where
  | same (eq : d'.mem = d.mem)
  | stored (r v : Byte) (exist : isRegister p r = true) (eq : d'.mem = memWrite d.mem r v)
  | others (writes : List (Bool × Byte)) (eq : d'.mem = otherMasterWrites p writes d.mem)

theorem RefDevice.answer_stores {d' : RefDevice} {prim : Primitive} {res : Byte} {drew : Bool}
    (h : d.answer p n prim = .answers res d' drew) : RefDevice.Stores p d d' := by
  unfold RefDevice.answer at h
  split at h
  · unfold RefDevice.begins at h
    split at h <;> cases h
    unfold RefDevice.otherMaster
    split
    · exact .same rfl
    · exact .others _ rfl
  · unfold RefDevice.writes at h
    split at h <;> cases h
    exact .same rfl
  · unfold RefDevice.endsWrite at h
    split at h
    · split at h <;> cases h
      rename_i hr
      exact .stored _ _ hr rfl
    · cases h
  · unfold RefDevice.endsPointer at h
    split at h <;> cases h
    exact .same rfl
  · unfold RefDevice.requests at h
    split at h
    · rename_i hc
      split at h <;> cases h
      · exact .same rfl
      · exact .stored _ _ hc.2.2.2 rfl
    · cases h
  · unfold RefDevice.counts at h
    split at h <;> cases h <;> exact .same rfl
  · unfold RefDevice.reads at h
    split at h <;> cases h
    exact .same rfl

end Sys2Proof.Machine
end

