-- ==== Sys2Proof/Laws/PerInstr.lean ====
section
/-! SUPPORT. What holds of every instruction as syntax, one lemma per constructor. -/

namespace Sys2Proof.Laws

/-- The word of an instruction has a zero reserved field, the operation code of its row of the opcode table, and the
instruction's own data and channel fields; it is well-formed. -/
def Fields.Statement (i : Instr) : Prop :=
  i.wellFormed = true ∧ Request.ofWord (encode i) = { data := i.data, ch := i.ch, rsv := 0#5, op := i.opcode }

/-- Where each bit of a request word comes from (rule R90). -/
theorem getLsbD_toWord (d c : Byte) (v : BitVec 5) (o : BitVec 3) (k : Nat) :
    (d ++ c ++ v ++ o : BitVec (8 + 8 + 5 + 3)).getLsbD k =
      if k < 3 then o.getLsbD k else if k - 3 < 5 then v.getLsbD (k - 3)
      else if k - 3 - 5 < 8 then c.getLsbD (k - 3 - 5) else d.getLsbD (k - 3 - 5 - 8) := by
  simp only [BitVec.getLsbD_append]

/-- The fields of the word made of four fields are those fields. -/
theorem ofWord_toWord (r : Request) : Request.ofWord r.toWord = r := by
  obtain ⟨d, c, v, o⟩ := r
  simp only [Request.ofWord, Request.toWord, Request.mk.injEq]
  refine ⟨?_, ?_, ?_, ?_⟩ <;> ext i hi <;> rw [BitVec.getElem_extractLsb']
  · refine (getLsbD_toWord d c v o (16 + i)).trans ?_
    rw [if_neg (by omega), if_neg (by omega), if_neg (by omega), BitVec.getLsbD_eq_getElem (by omega)]
    congr 1; omega
  · refine (getLsbD_toWord d c v o (8 + i)).trans ?_
    rw [if_neg (by omega), if_neg (by omega), if_pos (by omega), BitVec.getLsbD_eq_getElem (by omega)]
    congr 1; omega
  · refine (getLsbD_toWord d c v o (3 + i)).trans ?_
    rw [if_neg (by omega), if_pos (by omega), BitVec.getLsbD_eq_getElem (by omega)]
    congr 1; omega
  · refine (getLsbD_toWord d c v o (0 + i)).trans ?_
    rw [if_pos (by omega), BitVec.getLsbD_eq_getElem (by omega)]
    congr 1; omega

theorem Fields.enc (data ch : Byte) : Fields.Statement (.enc data ch) := ⟨rfl, ofWord_toWord _⟩
theorem Fields.dec (data ch : Byte) : Fields.Statement (.dec data ch) := ⟨rfl, ofWord_toWord _⟩
theorem Fields.wr (data ch : Byte) : Fields.Statement (.wr data ch) := ⟨rfl, ofWord_toWord _⟩
theorem Fields.wrv (data ch : Byte) : Fields.Statement (.wrv data ch) := ⟨rfl, ofWord_toWord _⟩
theorem Fields.rd (data ch : Byte) : Fields.Statement (.rd data ch) := ⟨rfl, ofWord_toWord _⟩

end Sys2Proof.Laws
end

