-- ==== Sys2Proof/Laws/Transport.lean ====
section
/-! SUPPORT. What the transport can do with a primitive, said once. -/

namespace Sys2Proof.Machine

/-- What a completed primitive leaves alone and what it records: the block, the parameters and the host's side are
unchanged, the duty flags too, and the primitive is on record. -/
structure Completed (prim : Primitive) (s : State) (res : Byte) (s' : State) : Prop where
  blk : s'.blk = s.blk
  params : s'.params = s.params
  rst : s'.rst = s.rst
  requests : s'.requests = s.requests
  exclusive : s.transport.exclusive = true
  exclusive' : s'.transport.exclusive = true
  strayDone : s'.transport.strayDone = s.transport.strayDone
  issued : s'.transport.issued =
    s.transport.issued ++ [{ prim := prim, res := res, taken := s'.device.bind (·.taken prim) }]

/-- The general transport's and the reference device's part of a completed primitive. -/
inductive CompletedBy (prim : Primitive) (s : State) (res : Byte) (s' : State) : Prop where
  | scripted (rest : List Answer) (general : s.device = none) (general' : s'.device = none)
      (answers : s.transport.answers = .complete res :: rest) (answers' : s'.transport.answers = rest)
  | drawn (general : s.device = none) (general' : s'.device = none)
      (answers : s.transport.answers = []) (answers' : s'.transport.answers = [])
      (value : res = Sys2Proof.Config.transportAnswer s.transport.draws)
  | reference (d d' : RefDevice) (drew : Bool) (device : s.device = some d) (device' : s'.device = some d')
      (answers : s'.transport.answers = s.transport.answers)
      (reply : d.answer s.params s.transport.draws prim = .answers res d' drew)

/-- Everything a completed primitive can do. -/
theorem performPrimitive_completes {prim : Primitive} {s s' : State} {res : Byte}
    (h : performPrimitive prim s = .completes res s') : Completed prim s res s' ∧ CompletedBy prim s res s' := by
  unfold performPrimitive at h
  split at h
  · cases h
  rename_i hx
  split at h
  · rename_i hd
    unfold generalReply at h
    split at h
    · rename_i r rest ha
      cases h
      exact ⟨⟨rfl, rfl, rfl, rfl, hx, hx, rfl, by simp [hd]⟩, .scripted rest hd hd ha rfl⟩
    · cases h
    · rename_i ha
      cases h
      exact ⟨⟨rfl, rfl, rfl, rfl, hx, hx, rfl, by simp [hd]⟩, .drawn hd hd ha ha rfl⟩
  · rename_i d hd
    unfold referenceReply at h
    split at h
    · rename_i r d' drew ha
      cases h
      exact ⟨⟨rfl, rfl, rfl, rfl, hx, hx, rfl, rfl⟩, .reference d d' drew hd rfl rfl ha⟩
    · cases h

/-- The transport never completes a primitive only when the next coming answer says so. -/
theorem performPrimitive_never {prim : Primitive} {s : State} (h : performPrimitive prim s = .never) :
    s.transport.exclusive = true ∧ s.device = none ∧ ∃ rest, s.transport.answers = .never :: rest := by
  unfold performPrimitive at h
  split at h
  · cases h
  rename_i hx
  split at h
  · rename_i hd
    unfold generalReply at h
    split at h
    · cases h
    · rename_i rest ha; exact ⟨hx, hd, rest, ha⟩
    · cases h
  · unfold referenceReply at h
    split at h <;> cases h

/-- A primitive is refused only when the exclusive-use duty is broken, or by the reference device. -/
theorem performPrimitive_refused {prim : Primitive} {s : State} {why : Refusal}
    (h : performPrimitive prim s = .refused why) :
    (why = .exclusiveUseBroken ∧ s.transport.exclusive = false) ∨
      (why = .outsideReferenceDevice ∧ s.transport.exclusive = true ∧
        ∃ d, s.device = some d ∧ d.answer s.params s.transport.draws prim = .noMeaning) := by
  unfold performPrimitive at h
  split at h
  · rename_i hx; cases h; exact .inl ⟨rfl, hx⟩
  rename_i hx
  split at h
  · unfold generalReply at h
    split at h <;> cases h
  · rename_i d hd
    unfold referenceReply at h
    split at h
    · cases h
    · rename_i ha; cases h; exact .inr ⟨rfl, hx, d, hd, ha⟩

/-- The transport never looks at the block's registers, and leaves them as they are. -/
theorem performPrimitive_blk (prim : Primitive) (s : State) (b : Block) :
    performPrimitive prim { s with blk := b } =
      match performPrimitive prim s with
      | .completes res s' => .completes res { s' with blk := b }
      | .never => .never
      | .refused why => .refused why := by
  unfold performPrimitive
  cases s.transport.exclusive with
  | false => rfl
  | true =>
    simp only
    split
    · simp only [generalReply]
      split <;> rfl
    · simp only [referenceReply]
      split <;> rfl

/-- The general transport with a prepared answer completes with it. -/
theorem performPrimitive_scripted {prim : Primitive} {s : State} {res : Byte} {rest : List Answer}
    (hx : s.transport.exclusive = true) (hd : s.device = none) (ha : s.transport.answers = .complete res :: rest) :
    performPrimitive prim s =
      .completes res ({ s with transport := { s.transport with answers := rest } }.record prim res none false) := by
  simp [performPrimitive, hx, hd, generalReply, ha]

/-- The general transport with no prepared answer left completes with a free value. -/
theorem performPrimitive_drawn {prim : Primitive} {s : State} (hx : s.transport.exclusive = true) (hd : s.device = none)
    (ha : s.transport.answers = []) :
    performPrimitive prim s = .completes (Sys2Proof.Config.transportAnswer s.transport.draws)
      (s.record prim (Sys2Proof.Config.transportAnswer s.transport.draws) none true) := by
  simp [performPrimitive, hx, hd, generalReply, ha]

/-- The reference device's answer is the transport's. -/
theorem performPrimitive_reference {prim : Primitive} {s : State} {d d' : RefDevice} {res : Byte} {drew : Bool}
    (hx : s.transport.exclusive = true) (hd : s.device = some d)
    (ha : d.answer s.params s.transport.draws prim = .answers res d' drew) :
    performPrimitive prim s = .completes res ({ s with device := some d' }.record prim res (d'.taken prim) drew) := by
  simp [performPrimitive, hx, hd, referenceReply, ha]

end Sys2Proof.Machine
end

