-- ==== Sys2Proof/Laws/Step.lean ====
section
/-! SUPPORT. What a step can do, said once: the lemmas the proofs cite instead of unfolding `step`. -/

namespace Sys2Proof.Machine

/-- The writes a presented word's acceptance makes. -/
def Block.acceptWord (w : ReqWord) (b : Block) : Block :=
  match decode w with
  | .legal (.enc data ch) => b.acceptEnc data ch
  | .legal (.dec data ch) => b.acceptDec data ch
  | .legal (.wr data ch) => b.acceptWrite 0b010#3 data ch
  | .legal (.wrv data ch) => b.acceptWrite 0b011#3 data ch
  | .legal (.rd data ch) => b.acceptRead data ch
  | .illegal _ => b.acceptIllegal (Request.ofWord w)

/-- IDLE issues no primitive, and every other state issues one. -/
@[simp] theorem Block.primitive_eq_none {p : Sys2Proof.Config.Params} {b : Block} :
    b.primitive p = none ↔ b.state = .idle := by
  unfold Block.primitive; split <;> simp_all

/-- A step with a word on the request port is the acceptance of the word, or the operation in progress. -/
theorem stepReleased_cons {s : State} {w : ReqWord} {rest : List ReqWord} (h : s.requests = w :: rest) :
    stepReleased s = requestStep (Block.acceptWord w) s := by
  unfold stepReleased State.presented
  simp only [h]
  unfold Block.acceptWord
  cases decode w with
  | illegal r => rfl
  | legal i => cases i <;> rfl

theorem stepReleased_nil {s : State} (h : s.requests = []) : stepReleased s = quietStep s := by
  simp [stepReleased, State.presented, h]

/-- In a state other than IDLE the request port plays no part. -/
theorem stepReleased_busy {s : State} (h : s.blk.state ≠ .idle) : stepReleased s = sequencer s := by
  cases hr : s.requests with
  | nil => simp [stepReleased_nil hr, quietStep, h]
  | cons w rest => simp [stepReleased_cons hr, requestStep, h]

theorem step_released {s : State} (h : s.rstAsserted = false) : step s = stepReleased s.tick := by
  unfold step
  split
  · rename_i e; simp [State.rstAsserted, e] at h
  · rfl

theorem step_asserted {s : State} {carriedOut : Bool} {rest : List ResetSample} (h : s.rst = .asserted carriedOut :: rest) :
    step s = .next (resetEvent carriedOut s.tick) := by
  simp [step, h]

theorem rstAsserted_iff {s : State} : s.rstAsserted = true ↔ ∃ c rest, s.rst = .asserted c :: rest := by
  unfold State.rstAsserted
  split
  · rename_i c rest h; simp [h]
  · rename_i h
    exact ⟨fun e => (Bool.false_ne_true e).elim, fun ⟨c, rest, e⟩ => (h c rest e).elim⟩

/-- The four things a step that answers a next state can be. -/
inductive Stepped (s t : State) : Prop where
  | reset (carriedOut : Bool) (rest : List ResetSample) (rst : s.rst = .asserted carriedOut :: rest)
      (eq : t = resetEvent carriedOut s.tick)
  | wait (released : s.rstAsserted = false) (idle : s.blk.state = .idle) (quiet : s.transport.strayDone = false)
      (requests : s.requests = []) (eq : t = s.tick)
  | accept (w : ReqWord) (rest : List ReqWord) (released : s.rstAsserted = false) (idle : s.blk.state = .idle)
      (quiet : s.transport.strayDone = false) (requests : s.requests = w :: rest)
      (eq : t = s.tick.accept (Block.acceptWord w))
  | move (prim : Primitive) (res : Byte) (s' : State) (released : s.rstAsserted = false) (busy : s.blk.state ≠ .idle)
      (issue : s.blk.primitive s.params = some prim) (performed : performPrimitive prim s.tick = .completes res s')
      (eq : t = { s' with blk := s.blk.transition s.params res })

theorem sequencer_next {s t : State} (hb : s.blk.state ≠ .idle) (h : sequencer s = .next t) :
    ∃ prim res s', s.blk.primitive s.params = some prim ∧ performPrimitive prim s = .completes res s' ∧
      t = { s' with blk := s.blk.transition s.params res } := by
  unfold sequencer at h
  split at h
  · rename_i hp; exact absurd (Block.primitive_eq_none.1 hp) hb
  rename_i prim hp
  split at h
  · rename_i res s' hc; cases h; exact ⟨prim, res, s', hp, hc, rfl⟩
  · cases h
  · cases h

theorem sequencer_completes {s s' : State} {prim : Primitive} {res : Byte} (hp : s.blk.primitive s.params = some prim)
    (hc : performPrimitive prim s = .completes res s') :
    sequencer s = .next { s' with blk := s.blk.transition s.params res } := by
  simp [sequencer, hp, hc]

/-- Everything a step that answers a next state can be. -/
theorem step_next {s t : State} (h : step s = .next t) : Stepped s t := by
  cases hr : s.rstAsserted with
  | true =>
    obtain ⟨c, rest, e⟩ := rstAsserted_iff.1 hr
    rw [step_asserted e] at h
    cases h
    exact .reset c rest e rfl
  | false =>
    rw [step_released hr] at h
    by_cases hb : s.blk.state = .idle
    · cases hq : s.requests with
      | nil =>
        rw [stepReleased_nil (by simpa using hq)] at h
        simp only [quietStep, State.tick_blk, hb, if_true, idleStep, State.tick_transport] at h
        split at h
        · cases h
        · rename_i hs; cases h; exact .wait hr hb hs hq rfl
      | cons w rest =>
        rw [stepReleased_cons (w := w) (rest := rest) (by simpa using hq)] at h
        simp only [requestStep, State.tick_blk, hb, if_true, idleStep, State.tick_transport] at h
        split at h
        · cases h
        · rename_i hs; cases h; exact .accept w rest hr hb hs hq rfl
    · rw [stepReleased_busy (by simpa using hb)] at h
      obtain ⟨prim, res, s', hp, hc, e⟩ := sequencer_next (by simpa using hb) h
      exact .move prim res s' hr hb hp hc e

/-- The step of a state other than IDLE whose primitive completes. -/
theorem step_move {s s' : State} {prim : Primitive} {res : Byte} (hr : s.rstAsserted = false)
    (hb : s.blk.state ≠ .idle) (hp : s.blk.primitive s.params = some prim)
    (hc : performPrimitive prim s.tick = .completes res s') :
    step s = .next { s' with blk := s.blk.transition s.params res } := by
  rw [step_released hr, stepReleased_busy (by simpa using hb)]
  exact sequencer_completes (s := s.tick) (by simpa using hp) hc

/-- The step of a ready block with a word on the request port. -/
theorem step_accept {s : State} {w : ReqWord} {rest : List ReqWord} (hr : s.rstAsserted = false)
    (hi : s.blk.state = .idle) (hq : s.transport.strayDone = false) (hw : s.requests = w :: rest) :
    step s = .next (s.tick.accept (Block.acceptWord w)) := by
  rw [step_released hr, stepReleased_cons (w := w) (rest := rest) (by simpa using hw)]
  simp [requestStep, hi, idleStep, hq]

/-- The step of a state other than IDLE under the general transport, with its next answer prepared (rule R175). -/
theorem step_scripted {s : State} {prim : Primitive} {res : Byte} {later : List Answer} (hr : s.rstAsserted = false)
    (hb : s.blk.state ≠ .idle) (hp : s.blk.primitive s.params = some prim) (hx : s.transport.exclusive = true)
    (hd : s.device = none) (ha : s.transport.answers = .complete res :: later) :
    step s = .next { s with
      rst := s.rst.tail
      blk := s.blk.transition s.params res
      transport := { s.transport with
        answers := later, issued := s.transport.issued ++ [{ prim := prim, res := res }] } } :=
  step_move hr hb hp (performPrimitive_scripted (s := s.tick) hx hd ha)

/-- The step of a state other than IDLE with the reference device in place (rule R80). -/
theorem step_reference {s : State} {prim : Primitive} {res : Byte} {d d' : RefDevice} {drew : Bool}
    (hr : s.rstAsserted = false) (hb : s.blk.state ≠ .idle) (hp : s.blk.primitive s.params = some prim)
    (hx : s.transport.exclusive = true) (hd : s.device = some d)
    (ha : d.answer s.params s.transport.draws prim = .answers res d' drew) :
    step s = .next { s with
      rst := s.rst.tail
      blk := s.blk.transition s.params res
      device := some d'
      transport := { s.transport with
        issued := s.transport.issued ++ [{ prim := prim, res := res, taken := d'.taken prim }]
        draws := bif drew then s.transport.draws + 1 else s.transport.draws } } :=
  step_move hr hb hp (performPrimitive_reference (s := s.tick) hx hd ha)

@[simp] theorem run_zero (s : State) : run 0 s = .next s := rfl

theorem run_succ {s t : State} {k : Nat} (h : step s = .next t) : run (k + 1) s = run k t := by
  simp only [run, Host.Core.run]
  rw [show Host.Core.step Sys2Proof.core s = .next t from h]

theorem run_fault {s : State} {f : Fault} {k : Nat} (h : step s = .fault f) : run (k + 1) s = .fault f := by
  simp only [run, Host.Core.run]
  rw [show Host.Core.step Sys2Proof.core s = .fault f from h]
  rfl

theorem run_refused {s : State} {why : Refusal} {k : Nat} (h : step s = .refused why) :
    run (k + 1) s = .refused why := by
  simp only [run, Host.Core.run]
  rw [show Host.Core.step Sys2Proof.core s = .refused why from h]
  rfl

end Sys2Proof.Machine
end

