-- ==== Sys2Proof/Laws/Transition.lean ====
section
/-! SUPPORT. What the writes of a non-IDLE state's step can be, said once: the rows of 41_transport.md rule R161. -/

namespace Sys2Proof.Machine

open Sys2Proof.Config (Params)

/-- A row of rule R161 whose result is not looked at: the control state moves from `a` to `b`. -/
inductive FsmState.Passes : FsmState → FsmState → Prop where
  | wBegin : Passes .wBegin .wSel
  | wSel : Passes .wSel .wData
  | wData : Passes .wData .wEnd
  | rBegin : Passes .rBegin .rSel
  | rSel : Passes .rSel .rEnd
  | rReq : Passes .rReq .rAvail

/-- The rows of rule R161: from the registers `b` to the registers `b'` with the result `res`. -/
inductive Block.Row (p : Params) (res : Byte) (b b' : Block) : Prop where
  | pass (nxt : FsmState) (row : b.state.Passes nxt) (eq : b' = { b with state := nxt })
  | pointer (state : b.state = .rEnd) (eq : b' = { b with status_r := res, state := .rReq })
  | writeFailed (state : b.state = .wEnd) (status : res ≠ 0#8)
      (eq : b' = { b with status_r := res }.finish false 0#8 .busTransactionFailure)
  | written (state : b.state = .wEnd) (status : res = 0#8) (op : b.op_r = 0b010#3)
      (eq : b' = { b with status_r := res }.finish true 0#8 .ok)
  | turned (state : b.state = .wEnd) (status : res = 0#8) (op : b.op_r ≠ 0b010#3)
      (eq : b' = { b with status_r := res, vfy_r := true, state := .rBegin })
  | noByte (state : b.state = .rAvail) (count : res = 0#8)
      (eq : b' = { b with navail_r := res }.finish false 0x80#8 .readUnavailable)
  | available (state : b.state = .rAvail) (count : res ≠ 0#8) (eq : b' = { b with navail_r := res, state := .rRead })
  | read (state : b.state = .rRead) (vfy : b.vfy_r = false)
      (eq : b' = { b with rd_r := res }.finish true (Codec.decode res) .ok)
  | verified (state : b.state = .rRead) (vfy : b.vfy_r = true) (same : Codec.decode res = b.verifyTarget p)
      (eq : b' = { b with rd_r := res }.finish true (Codec.decode res) .ok)
  | mismatch (state : b.state = .rRead) (vfy : b.vfy_r = true) (differs : Codec.decode res ≠ b.verifyTarget p)
      (eq : b' = { b with rd_r := res }.finish false (Codec.decode res) .verifyMismatch)

/-- Neither a count nor a byte just taken is part of the verify target. -/
@[simp] theorem Block.verifyTarget_rd_r (p : Params) (b : Block) (v : Byte) :
    { b with rd_r := v }.verifyTarget p = b.verifyTarget p := rfl

/-- A read-back equal to the target ends a WRV with success (rule R159). -/
theorem Block.verifyDone_same {p : Params} {b : Block} {x : Byte} (h : x = b.verifyTarget p) :
    b.verifyDone p (some x) = b.finish true x .ok := if_pos h

/-- A read-back that differs from the target ends a WRV with VERIFY_MISMATCH (rule R159). -/
theorem Block.verifyDone_differs {p : Params} {b : Block} {x : Byte} (h : x ≠ b.verifyTarget p) :
    b.verifyDone p (some x) = b.finish false x .verifyMismatch := if_neg h

/-- Every transition of a non-IDLE state is a row of rule R161. -/
theorem Block.transition_row (p : Params) (res : Byte) (b : Block) (hb : b.state ≠ .idle) :
    Block.Row p res b (b.transition p res) := by
  cases hs : b.state with
  | idle => exact absurd hs hb
  | wBegin => exact .pass .wSel (hs ▸ .wBegin) (by simp [Block.transition, hs])
  | wSel => exact .pass .wData (hs ▸ .wSel) (by simp [Block.transition, hs])
  | wData => exact .pass .wEnd (hs ▸ .wData) (by simp [Block.transition, hs])
  | rBegin => exact .pass .rSel (hs ▸ .rBegin) (by simp [Block.transition, hs])
  | rSel => exact .pass .rEnd (hs ▸ .rSel) (by simp [Block.transition, hs])
  | rReq => exact .pass .rAvail (hs ▸ .rReq) (by simp [Block.transition, hs])
  | rEnd => exact .pointer hs (by simp [Block.transition, hs])
  | wEnd =>
    by_cases h0 : res = 0#8
    · by_cases ho : b.op_r = 0b010#3
      · exact .written hs h0 ho (by simp [Block.transition, hs, Block.endWrite, h0, ho])
      · exact .turned hs h0 ho (by simp [Block.transition, hs, Block.endWrite, h0, ho])
    · exact .writeFailed hs h0 (by simp [Block.transition, hs, Block.endWrite, h0])
  | rAvail =>
    by_cases h0 : res = 0#8
    · refine .noByte hs h0 ?_
      cases hv : b.vfy_r <;>
        simp [Block.transition, hs, Block.checkAvailable, h0, Block.readDone, hv, Block.plainReadDone, Block.verifyDone,
          errorSentinel]
    · exact .available hs h0 (by simp [Block.transition, hs, Block.checkAvailable, h0])
  | rRead =>
    cases hv : b.vfy_r with
    | false => exact .read hs hv (by simp [Block.transition, hs, Block.readDone, hv, Block.plainReadDone])
    | true =>
      by_cases ht : Codec.decode res = b.verifyTarget p
      · exact .verified hs hv ht (by
          simp only [Block.transition, hs, Block.readDone, hv]; exact Block.verifyDone_same ht)
      · exact .mismatch hs hv ht (by
          simp only [Block.transition, hs, Block.readDone, hv]; exact Block.verifyDone_differs ht)

/-- A transition leaves the latched request and the encoded byte alone (rules R33 to R36). -/
theorem Block.transition_latched (p : Params) (res : Byte) (b : Block) (hb : b.state ≠ .idle) :
    (b.transition p res).op_r = b.op_r ∧ (b.transition p res).ch_r = b.ch_r ∧
      (b.transition p res).data_r = b.data_r ∧ (b.transition p res).enc_r = b.enc_r := by
  cases Block.transition_row p res b hb <;> rename_i eq <;> rw [eq] <;> exact ⟨rfl, rfl, rfl, rfl⟩

end Sys2Proof.Machine
end

