-- ==== Sys2Proof/Tests/Slice0.lean ====
section
/-! SUPPORT. Tests on fixed values, from spec 95_test_vectors.md and by hand from the rules, and for every obligation with
hypotheses a witness: concrete values that meet all of them together. -/

namespace Sys2Proof.Tests

open Sys2Proof Sys2Proof.Machine

/-! ### Helpers: small states -/

/-- Parameters for tests: the general-knowledge select bytes of 95_test_vectors.md and the default verify target. -/
def params : Sys2Proof.Config.Params := { regSel0 := 0xF8#8, regSel1 := 0xF9#8, verifyAgainst := .requested }

/-- The reset state with the test parameters. -/
def base : State := { State.reset with params := params }

/-- An IDLE block with request words to present and prepared transport answers. -/
def idle (words : List ReqWord) (results : List Byte) : State :=
  { base with requests := words, transport := { base.transport with answers := results.map Answer.complete } }

/-- A WRV of +50 on channel 0 in progress, in control state `st`, with prepared transport answers. -/
def busy (st : FsmState) (results : List Byte) : State :=
  { idle [] results with blk := { Block.reset with state := st, op_r := 3#3, data_r := 0x32#8, enc_r := 0xB2#8 } }

/-- As `busy`, with the transport never completing. -/
def stuck (st : FsmState) : State :=
  { busy st [] with transport := { base.transport with answers := [.never] } }

/-- A reference device with zero in both registers (value 0x80). -/
def device : RefDevice :=
  { mem := [(0xF8, 0x80#8), (0xF9, 0x80#8)], ptr := 0xF9#8, rx := [], txn := none, corrupt := 0x00#8, otherWrites := [] }

/-- A state with the reference device in place. -/
def withDevice (d : RefDevice) (s : State) : State := { s with device := some d }

/-- The block after a step that answers a next state. -/
def blockAfter : Host.Outcome State Fault Refusal → Option Block
  | .next t => some t.blk
  | _ => none

/-- The response after a step, where there is one. -/
def responseAfter (o : Host.Outcome State Fault Refusal) : Option (Bool × Byte × BitVec 3) :=
  match blockAfter o with
  | some b => if b.done then some (b.resp_ok, b.resp_val, b.resp_err) else none
  | none => none

/-- The control state after a step. -/
def controlAfter (o : Host.Outcome State Fault Refusal) : Option FsmState := (blockAfter o).map (·.state)

/-! ### WellFormed: each check refuses an ill-formed request -/

theorem test_wellFormed_legal : ({ data := 0x64#8, ch := 0xFF#8, rsv := 0#5, op := 2#3 } : Request).wellFormed = true := by
  decide
theorem test_reservedZero_refuses : ({ data := 0#8, ch := 0#8, rsv := 1#5, op := 0#3 } : Request).wellFormed = false := by
  decide
theorem test_reservedZero_refuses_top : ({ data := 0#8, ch := 0#8, rsv := 16#5, op := 0#3 } : Request).wellFormed = false := by
  decide
theorem test_opDefined_refuses_5 : ({ data := 0#8, ch := 0#8, rsv := 0#5, op := 5#3 } : Request).wellFormed = false := by
  decide
theorem test_opDefined_refuses_6 : ({ data := 0#8, ch := 0#8, rsv := 0#5, op := 6#3 } : Request).wellFormed = false := by
  decide
theorem test_opDefined_refuses_7 : ({ data := 0#8, ch := 0#8, rsv := 0#5, op := 7#3 } : Request).wellFormed = false := by
  decide

/-! ### Decoding: words written out bit by bit from rules R90 and R91 (T-DEC-REQ-1 to 13) -/

theorem test_decode_enc : decode 0b01100100_00000000_00000_000#24 = .legal (.enc 0x64#8 0x00#8) := by decide
theorem test_decode_enc_channel : decode 0b11111111_11111111_00000_000#24 = .legal (.enc 0xFF#8 0xFF#8) := by decide
theorem test_decode_dec : decode 0b01001011_00000000_00000_001#24 = .legal (.dec 0x4B#8 0x00#8) := by decide
theorem test_decode_wr : decode 0b10110101_00000001_00000_010#24 = .legal (.wr 0xB5#8 0x01#8) := by decide
theorem test_decode_wrv : decode 0b00110010_00000000_00000_011#24 = .legal (.wrv 0x32#8 0x00#8) := by decide
theorem test_decode_rd : decode 0b00000000_00000001_00000_100#24 = .legal (.rd 0x00#8 0x01#8) := by decide
theorem test_decode_op5 : decode 0b00000000_00000000_00000_101#24 = .illegal .reservedOp := by decide
theorem test_decode_op6 : decode 0b00000000_00000000_00000_110#24 = .illegal .reservedOp := by decide
theorem test_decode_op7 : decode 0b00000000_00000000_00000_111#24 = .illegal .reservedOp := by decide
theorem test_decode_rsv1 : decode 0b00000000_00000000_00001_000#24 = .illegal .reservedField := by decide
theorem test_decode_rsv2 : decode 0b01100100_00000000_00010_010#24 = .illegal .reservedField := by decide
theorem test_decode_rsv31 : decode 0xFFFFFF#24 = .illegal .reservedField := by decide
theorem test_encode_wr : encode (.wr 0xB5#8 0x01#8) = 0xB50102#24 := by decide
theorem test_encode_rd : encode (.rd 0xFF#8 0x01#8) = 0xFF0104#24 := by decide
theorem test_table_wrv : decodeTableWord 24 0x320003 = some (.wrv 0x32#8 0x00#8) := by decide
theorem test_table_short : decodeTableWord 8 0xFF04 = some (.rd 0x00#8 0x00#8) := by decide

/-! ### The codec (95_test_vectors.md sections 1 and 2.1) -/

theorem test_encode_values :
    [0x64#8, 0xB5#8, 0x00#8, 0x80#8, 0x81#8, 0x7F#8, 0xFF#8, 0x9C#8].map Codec.encode =
      [0xE4#8, 0x4B#8, 0x80#8, 0x7F#8, 0x7F#8, 0xFF#8, 0x01#8, 0x64#8] := by decide
theorem test_decode_values :
    [0xE4#8, 0x4B#8, 0x80#8, 0x00#8, 0x7F#8, 0xFF#8, 0x01#8, 0x81#8].map Codec.decode =
      [0x64#8, 0xB5#8, 0x00#8, 0x00#8, 0x81#8, 0x7F#8, 0xFF#8, 0x01#8] := by decide

/-! ### One step of each request -/

/-- T-ENC-6 and T-ENC-8: saturation without an error; the channel is ignored. -/
theorem test_enc : responseAfter (exec (.enc 0x80#8 0x00#8) base) = some (true, 0x7F#8, 0#3) := by decide
theorem test_enc_channel : responseAfter (step (idle [0x01FF00#24] [])) = some (true, 0x81#8, 0#3) := by decide
/-- T-DEC-4 and T-DEC-1. -/
theorem test_dec : responseAfter (exec (.dec 0x7F#8 0x00#8) base) = some (true, 0x81#8, 0#3) := by decide
theorem test_dec_negative_zero : responseAfter (step (idle [0x000001#24] [])) = some (true, 0x00#8, 0#3) := by decide
/-- T-WR-2; and T-WR-5's acceptance, which encodes -128 as `0x7F`. -/
theorem test_wr_invalid : responseAfter (exec (.wr 0x05#8 0xFF#8) base) = some (false, 0x00#8, 1#3) := by decide
theorem test_wr_encodes : (blockAfter (exec (.wr 0x80#8 0x00#8) base)).map (·.enc_r) = some 0x7F#8 := by decide
/-- T-WRV-4 and T-WRV-5, the last step. -/
theorem test_wrv_verified :
    responseAfter (step { busy .rRead [0xB2#8] with blk := { (busy .rRead []).blk with vfy_r := true } }) =
      some (true, 0x32#8, 0#3) := by decide
theorem test_wrv_mismatch :
    responseAfter (step { busy .rRead [0xB3#8] with blk := { (busy .rRead []).blk with vfy_r := true } }) =
      some (false, 0x33#8, 4#3) := by decide
/-- T-RD-1; and T-RD-4's last step, a received `0x80` that is a valid zero. -/
theorem test_rd_invalid : responseAfter (exec (.rd 0x00#8 0x05#8) base) = some (false, 0x80#8, 1#3) := by decide
theorem test_rd_zero : responseAfter (step (busy .rRead [0x80#8])) = some (true, 0x00#8, 0#3) := by decide
/-- T-ILL-5 and T-ILL-6: no bus activity, and ILLEGAL_REQUEST before INVALID_CHANNEL. -/
theorem test_illegal_rsv : responseAfter (step (idle [0x640012#24] [])) = some (false, 0x80#8, 5#3) := by decide
theorem test_illegal_op : responseAfter (step (idle [0x000507#24] [])) = some (false, 0x80#8, 5#3) := by decide
/-- T-WR-4: any status but 0 fails the write. -/
theorem test_write_fails : responseAfter (step (busy .wEnd [0x02#8])) = some (false, 0x00#8, 2#3) := by decide
/-- T-WRV-10: the status of the pointer write is stored and not examined. -/
theorem test_pointer_status :
    (blockAfter (step (busy .rEnd [0x04#8]))).map (fun b => (b.state, b.status_r)) = some (.rReq, 0x04#8) := by decide
/-- T-WRV-6 and T-WRV-7: the two settings of `VERIFY_AGAINST` on a requested -128. -/
theorem test_verify_targets :
    ({ Block.reset with data_r := 0x80#8 }.verifyTarget params = 0x80#8) ∧
    ({ Block.reset with data_r := 0x80#8 }.verifyTarget { params with verifyAgainst := .saturated } = 0x81#8) := by decide
/-- T-RST-1 and T-RST-2: reset during R_AVAIL abandons the operation; the addressed register becomes a draw (rule R231). -/
theorem test_reset_mid_operation :
    (match step (withDevice device { busy .rAvail [] with rst := [.asserted false] }) with
      | .next t => (t.blk, t.reqReady, t.tValid, t.device.map (·.mem)) 
      | _ => (Block.reset, false, true, none)) = (Block.reset, true, false, some [(0xF9, 0x80#8)]) := by decide
/-- T-HAZ-1: a presented RD waits while a write is in progress. -/
theorem test_request_waits :
    controlAfter (exec (.rd 0x00#8 0x00#8) (busy .wData [0x00#8])) = some .wEnd := by decide
/-- Section 2.8, step 4: the device takes the byte and the pointer. -/
theorem test_device_write :
    (match step (withDevice { device with txn := some [0xF8#8, 0xB2#8] } (busy .wEnd [])) with
      | .next t => t.device.map (fun d => (d.mem, d.ptr))
      | _ => none) = some ([(0xF8, 0xB2#8), (0xF9, 0x80#8)], 0xF8#8) := by decide
/-- The host's interface: a presented instruction is the next one run. -/
theorem test_withFetchWord :
    responseAfter (step ((State.reset).withFetchWord 24 0x640000)) = some (true, 0xE4#8, 0#3) := by decide

/-! ### The assembler (rules R111 and R112) -/

/-- A line's request word. -/
def word? (text : List Char) : Option ReqWord :=
  match assembleLine text with
  | .line l => some l.word
  | _ => none

theorem test_asm_wr : word? ("WR ch0, 100 ; comment".toList) = some 0x640002#24 := by decide
theorem test_asm_enc : word? ("ENC  -75".toList) = some 0xB50000#24 := by decide
theorem test_asm_verify : word? ("write 0x01, -128, verify".toList) = some 0x800103#24 := by decide
theorem test_asm_raw : word? (".req 0x000005".toList) = some 0x000005#24 := by decide
theorem test_asm_range : assembleLine ("ENC -129".toList) = .bad := by decide
theorem test_asm_blank : assembleLine ("  ; only a comment".toList) = .blank := by decide

/-! ### Witnesses: values that meet the hypotheses of each obligation, clause by clause -/

theorem witness_CodecClosedForms :
    ((0x00#8).toNat ≤ 0x7F ∧ (0x7F#8).toNat ≤ 0x7F) ∧ (0x81 ≤ (0x81#8).toNat ∧ 0x81 ≤ (0xFF#8).toNat) ∧
    ((0x80#8).getLsbD 7 = true ∧ (0xFF#8).getLsbD 7 = true) ∧
    ((0x00#8).getLsbD 7 = false ∧ (0x7F#8).getLsbD 7 = false) := by decide

theorem witness_RoundTrip :
    (-127 ≤ sint8 0x81#8 ∧ sint8 0x81#8 ≤ 127) ∧ (-127 ≤ sint8 0x7F#8 ∧ sint8 0x7F#8 ≤ 127) := by decide

theorem witness_EncodeAfterDecode : 0x01#8 ≠ 0x00#8 ∧ 0xFF#8 ≠ 0x00#8 := by decide

theorem witness_CodecCollisionsAndImages :
    (0x00#8 ≠ 0x80#8 ∧ Codec.decode 0x00#8 = Codec.decode 0x80#8) ∧
    (0x80#8 ≠ 0x81#8 ∧ Codec.encode 0x80#8 = Codec.encode 0x81#8) := by decide

theorem witness_SignBitMapping :
    (0 ≤ sint8 0x00#8 ∧ 0 ≤ sint8 0x7F#8) ∧ (sint8 0x80#8 < 0 ∧ sint8 0xFF#8 < 0) := by decide

theorem witness_EncodeOfDecode : decode 0x320003#24 = .legal (.wrv 0x32#8 0x00#8) := by decide

theorem witness_DecodeRequestTable :
    ((0x000008#24).extractLsb' 3 5 ≠ 0#5 ∧ (0x0000F8#24).extractLsb' 3 5 ≠ 0#5) ∧
    ((0x000000#24).extractLsb' 3 5 = 0#5 ∧ (0x000001#24).extractLsb' 3 5 = 0#5 ∧
      (0x000002#24).extractLsb' 3 5 = 0#5 ∧ (0x000003#24).extractLsb' 3 5 = 0#5 ∧
      (0x000004#24).extractLsb' 3 5 = 0#5 ∧ (0x000005#24).extractLsb' 3 5 = 0#5 ∧
      (0x000007#24).extractLsb' 3 5 = 0#5) ∧
    ((0x000000#24).extractLsb' 0 3 = 0b000#3 ∧ (0x000001#24).extractLsb' 0 3 = 0b001#3 ∧
      (0x000002#24).extractLsb' 0 3 = 0b010#3 ∧ (0x000003#24).extractLsb' 0 3 = 0b011#3 ∧
      (0x000004#24).extractLsb' 0 3 = 0b100#3) ∧
    (0b101 ≤ ((0x000005#24).extractLsb' 0 3).toNat ∧ 0b101 ≤ ((0x000007#24).extractLsb' 0 3).toNat) :=
  ⟨by decide, by decide, by decide, by decide⟩

theorem witness_StepRunsDecodedRequest :
    (idle [0x320003#24] []).rstAsserted = false ∧ (idle [0x320003#24] []).requests = 0x320003#24 :: [] ∧
    decode 0x320003#24 = .legal (.wrv 0x32#8 0x00#8) := by decide

/-- The one hypothesis of EncCompletes and DecCompletes. -/
theorem witness_EncCompletes : base.Ready := by decide
theorem witness_DecCompletes : base.Ready := by decide

/-- The hypotheses of WrBegins, WrvBegins and RdBegins, on both channels. -/
theorem witness_WrBegins :
    base.Ready ∧ (0x00#8 = 0x00#8 ∨ 0x00#8 = 0x01#8) ∧ (0x01#8 = 0x00#8 ∨ 0x01#8 = 0x01#8) := by decide
theorem witness_WrvBegins :
    base.Ready ∧ (0x00#8 = 0x00#8 ∨ 0x00#8 = 0x01#8) ∧ (0x01#8 = 0x00#8 ∨ 0x01#8 = 0x01#8) := by decide
theorem witness_RdBegins :
    base.Ready ∧ (0x00#8 = 0x00#8 ∨ 0x00#8 = 0x01#8) ∧ (0x01#8 = 0x00#8 ∨ 0x01#8 = 0x01#8) := by decide

theorem witness_InvalidChannelCompletes :
    base.Ready ∧ (0x02#8 ≠ 0x00#8 ∧ 0x02#8 ≠ 0x01#8) ∧ (0xFF#8 ≠ 0x00#8 ∧ 0xFF#8 ≠ 0x01#8) := by decide

theorem witness_IllegalRequestCompletes (w : ReqWord) :
    (idle [w] []).rstAsserted = false ∧ (idle [w] []).Ready ∧ (idle [w] []).requests = w :: [] ∧
    ((0x000008#24).extractLsb' 3 5 ≠ 0#5 ∧ (0x0000F8#24).extractLsb' 3 5 ≠ 0#5 ∧
      0b101 ≤ ((0x000005#24).extractLsb' 0 3).toNat ∧ 0b101 ≤ ((0x000507#24).extractLsb' 0 3).toNat) :=
  ⟨rfl, ⟨rfl, rfl⟩, rfl, by decide⟩

theorem witness_RequestTakenOnlyWhenReady :
    (∃ t, step (idle [0x640000#24, 0x000004#24] []) = .next t ∧ (idle [0x640000#24, 0x000004#24] []).reqReady = true) ∧
    (∃ t, step (busy .wData [0x00#8]) = .next t ∧ (busy .wData [0x00#8]).reqReady = false) :=
  ⟨⟨_, rfl, by decide⟩, ⟨_, rfl, by decide⟩⟩

theorem witness_BusyRequestWaits :
    (busy .wData [0x00#8]).blk.state ≠ .idle ∧ ∃ t, exec (.rd 0x00#8 0x01#8) (busy .wData [0x00#8]) = .next t :=
  ⟨by decide, _, rfl⟩

theorem witness_PassingSteps :
    (∀ st, (busy st [0x07#8]).rstAsserted = false ∧ (busy st [0x07#8]).blk.state = st) ∧
    (∃ s', performPrimitive (.tBegin 0x48#7) (busy .wBegin [0x07#8]).tick = .completes 0x07#8 s') ∧
    (∃ s', performPrimitive (.tWrite (selectByte params 0x00#8)) (busy .wSel [0x07#8]).tick = .completes 0x07#8 s') ∧
    (∃ s', performPrimitive (.tWrite 0xB2#8) (busy .wData [0x07#8]).tick = .completes 0x07#8 s') ∧
    (∃ s', performPrimitive (.tBegin 0x48#7) (busy .rBegin [0x07#8]).tick = .completes 0x07#8 s') ∧
    (∃ s', performPrimitive (.tWrite (selectByte params 0x00#8)) (busy .rSel [0x07#8]).tick = .completes 0x07#8 s') ∧
    (∃ s', performPrimitive (.tEnd false) (busy .rEnd [0x07#8]).tick = .completes 0x07#8 s') ∧
    (∃ s', performPrimitive (.tRequest 0x48#7 0x01#8 true) (busy .rReq [0x07#8]).tick = .completes 0x07#8 s') :=
  ⟨fun _ => ⟨rfl, rfl⟩, ⟨_, rfl⟩, ⟨_, rfl⟩, ⟨_, rfl⟩, ⟨_, rfl⟩, ⟨_, rfl⟩, ⟨_, rfl⟩, ⟨_, rfl⟩⟩

/-- A WR in its last state. -/
def lastOfWr (results : List Byte) : State :=
  { busy .wEnd results with blk := { (busy .wEnd []).blk with op_r := 0b010#3 } }

/-- The three clauses: statuses 1 and 255, a WR with status 0, and a WRV with status 0. -/
theorem witness_WriteEndStep :
    (∀ status, (busy .wEnd [status]).rstAsserted = false ∧ (busy .wEnd [status]).blk.state = .wEnd ∧
      (lastOfWr [status]).rstAsserted = false ∧ (lastOfWr [status]).blk.state = .wEnd) ∧
    (∃ s', performPrimitive (.tEnd true) (busy .wEnd [0x01#8]).tick = .completes 0x01#8 s' ∧ 0x01#8 ≠ 0x00#8) ∧
    (∃ s', performPrimitive (.tEnd true) (busy .wEnd [0xFF#8]).tick = .completes 0xFF#8 s' ∧ 0xFF#8 ≠ 0x00#8) ∧
    (∃ s', performPrimitive (.tEnd true) (lastOfWr [0x00#8]).tick = .completes 0x00#8 s' ∧
      (lastOfWr [0x00#8]).blk.op_r = 0b010#3) ∧
    (∃ s', performPrimitive (.tEnd true) (busy .wEnd [0x00#8]).tick = .completes 0x00#8 s' ∧
      (busy .wEnd [0x00#8]).blk.op_r ≠ 0b010#3) :=
  ⟨fun _ => ⟨rfl, rfl, rfl, rfl⟩, ⟨_, rfl, by decide⟩, ⟨_, rfl, by decide⟩, ⟨_, rfl, by decide⟩, ⟨_, rfl, by decide⟩⟩

theorem witness_AvailabilityStep :
    (∀ n, (busy .rAvail [n]).rstAsserted = false ∧ (busy .rAvail [n]).blk.state = .rAvail) ∧
    (∃ s', performPrimitive .tAvailable (busy .rAvail [0x00#8]).tick = .completes 0x00#8 s') ∧
    (∃ s', performPrimitive .tAvailable (busy .rAvail [0x01#8]).tick = .completes 0x01#8 s' ∧ 0x01#8 ≠ 0x00#8) ∧
    (∃ s', performPrimitive .tAvailable (busy .rAvail [0xFF#8]).tick = .completes 0xFF#8 s' ∧ 0xFF#8 ≠ 0x00#8) :=
  ⟨fun _ => ⟨rfl, rfl⟩, ⟨_, rfl⟩, ⟨_, rfl, by decide⟩, ⟨_, rfl, by decide⟩⟩

/-- The verify phase of a WRV of `data` in its last state. -/
def lastOfWrv (data : Byte) (results : List Byte) : State :=
  { busy .rRead results with blk := { (busy .rRead []).blk with data_r := data, vfy_r := true } }

/-- An RD, a matching and a differing verify, and under the saturated target a matching one. -/
theorem witness_ReadStep :
    (∃ s', performPrimitive .tRead (busy .rRead [0x80#8]).tick = .completes 0x80#8 s' ∧
      (busy .rRead [0x80#8]).rstAsserted = false ∧ (busy .rRead [0x80#8]).blk.state = .rRead ∧
      (busy .rRead [0x80#8]).blk.vfy_r = false) ∧
    (∃ s', performPrimitive .tRead (lastOfWrv 0x32#8 [0xB2#8]).tick = .completes 0xB2#8 s' ∧
      (lastOfWrv 0x32#8 [0xB2#8]).rstAsserted = false ∧ (lastOfWrv 0x32#8 [0xB2#8]).blk.state = .rRead ∧
      (lastOfWrv 0x32#8 [0xB2#8]).blk.vfy_r = true ∧ Codec.decode 0xB2#8 = (lastOfWrv 0x32#8 [0xB2#8]).blk.data_r) ∧
    (∃ s', performPrimitive .tRead (lastOfWrv 0x80#8 [0x7F#8]).tick = .completes 0x7F#8 s' ∧
      (lastOfWrv 0x80#8 [0x7F#8]).rstAsserted = false ∧ (lastOfWrv 0x80#8 [0x7F#8]).blk.state = .rRead ∧
      (lastOfWrv 0x80#8 [0x7F#8]).blk.vfy_r = true ∧ Codec.decode 0x7F#8 ≠ (lastOfWrv 0x80#8 [0x7F#8]).blk.data_r ∧
      Codec.decode 0x7F#8 = Codec.sat (lastOfWrv 0x80#8 [0x7F#8]).blk.data_r) :=
  ⟨⟨_, rfl, by decide⟩, ⟨_, rfl, by decide⟩, ⟨_, rfl, by decide⟩⟩

theorem witness_OnePrimitivePerStep :
    (∃ t, step (idle [0x000004#24] []) = .next t ∧ (idle [0x000004#24] []).rstAsserted = false ∧
      (idle [0x000004#24] []).blk.state = .idle) ∧
    (∃ t, step (busy .rReq [0x00#8]) = .next t ∧ (busy .rReq [0x00#8]).rstAsserted = false ∧
      (busy .rReq [0x00#8]).blk.state ≠ .idle) :=
  ⟨⟨_, rfl, by decide⟩, ⟨_, rfl, by decide⟩⟩

/-- Each clause has a step in which its register does change. -/
theorem witness_RegistersWrittenOnlyAsTabled :
    (∃ t, step (idle [0x320103#24] []) = .next t ∧ (idle [0x320103#24] []).rstAsserted = false ∧
      t.blk.op_r ≠ 0#3 ∧ t.blk.ch_r ≠ 0#8 ∧ t.blk.data_r ≠ 0#8 ∧ t.blk.enc_r ≠ 0#8) ∧
    (∃ t, step (busy .wEnd [0x00#8]) = .next t ∧ (busy .wEnd [0x00#8]).rstAsserted = false ∧
      t.blk.vfy_r ≠ (busy .wEnd [0x00#8]).blk.vfy_r) ∧
    (∃ t, step (busy .rEnd [0x04#8]) = .next t ∧ (busy .rEnd [0x04#8]).rstAsserted = false ∧
      t.blk.status_r ≠ (busy .rEnd [0x04#8]).blk.status_r) ∧
    (∃ t, step (busy .rAvail [0x01#8]) = .next t ∧ (busy .rAvail [0x01#8]).rstAsserted = false ∧
      t.blk.navail_r ≠ (busy .rAvail [0x01#8]).blk.navail_r) ∧
    (∃ t, step (busy .rRead [0xB2#8]) = .next t ∧ (busy .rRead [0xB2#8]).rstAsserted = false ∧
      t.blk.rd_r ≠ (busy .rRead [0xB2#8]).blk.rd_r ∧ (busy .rRead [0xB2#8]).blk.done = false ∧ t.blk.done = true ∧
      t.blk.response ≠ (busy .rRead [0xB2#8]).blk.response) :=
  ⟨⟨_, rfl, by decide⟩, ⟨_, rfl, by decide⟩, ⟨_, rfl, by decide⟩, ⟨_, rfl, by decide⟩, ⟨_, rfl, by decide⟩⟩

/-- An acceptance that clears `done`. -/
theorem witness_RegistersWrittenOnlyAsTabled_done :
    ∃ t, step { idle [0x000004#24] [] with blk := { Block.reset with done := true } } = .next t ∧ t.blk.done = false :=
  ⟨_, rfl, by decide⟩

theorem witness_TransportAnswersAreFree :
    base.device = none ∧ base.transport.exclusive = true ∧ base.transport.answers = [] ∧
    (busy .wEnd [0x05#8]).device = none ∧ (busy .wEnd [0x05#8]).transport.exclusive = true ∧
    (busy .wEnd [0x05#8]).transport.answers = .complete 0x05#8 :: [] := by decide

theorem witness_StuckWithoutCompletion :
    (stuck .wBegin).rstAsserted = false ∧ (stuck .wBegin).blk.state ≠ .idle ∧ (stuck .wBegin).device = none ∧
    (stuck .wBegin).transport.exclusive = true ∧ (stuck .wBegin).transport.answers = .never :: [] := by decide

theorem witness_StuckOnlyOnTransport : step (stuck .rReq) = .fault .stuckOnTransport := rfl

/-- Each of the three refusals. -/
theorem witness_RefusedOnlyForTheSurroundings :
    step { base with transport := { base.transport with strayDone := true } } = .refused .completionWithoutPrimitive ∧
    step { busy .wSel [] with transport := { base.transport with exclusive := false } } = .refused .exclusiveUseBroken ∧
    step (withDevice device (busy .wEnd [])) = .refused .outsideReferenceDevice := ⟨rfl, rfl, rfl⟩

/-- Both clauses: a stray completion in IDLE, and broken exclusive use outside IDLE. -/
theorem witness_BrokenDutyRefused :
    (∃ s : State, s.rstAsserted = false ∧ s.blk.state = .idle ∧ s.transport.strayDone = true) ∧
    (∃ s : State, s.rstAsserted = false ∧ s.blk.state ≠ .idle ∧ s.transport.exclusive = false) :=
  ⟨⟨{ base with transport := { base.transport with strayDone := true } }, by decide⟩,
    ⟨{ busy .wSel [] with transport := { base.transport with exclusive := false } }, by decide⟩⟩

/-- Reset in IDLE, and in a read cycle whose primitive is carried out or not. -/
theorem witness_ResetEventClearsBlock :
    ({ base with rst := [.asserted true] } : State).rst = .asserted true :: [] ∧
    ({ busy .rEnd [] with rst := [.asserted false, .released] } : State).rst = .asserted false :: [.released] := by decide

/-- The device of `storing`: the two bytes of a write of 0xB2 to channel 0 are in its open transaction. -/
def deviceInWrite : RefDevice := { device with txn := some [0xF8#8, 0xB2#8] }

/-- The last state of a WRV's write cycle, with the reference device in step. -/
def storing : State := withDevice deviceInWrite (busy .wEnd [])

/-- Reset in IDLE, and in W_END with the primitive carried out or not. -/
theorem witness_ResetAndTheDevice :
    (∃ t, step (withDevice device { base with rst := [.asserted true] }) = .next t) ∧
    (∃ t, step { storing with rst := [.asserted false] } = .next t ∧ storing.blk.state ≠ .idle) ∧
    (∃ t, step { storing with rst := [.asserted true] } = .next t ∧ storing.blk.state ≠ .idle ∧
      storing.device = some deviceInWrite ∧ deviceInWrite.InStep storing.params storing.blk ∧
      deviceInWrite.otherWrites = [] ∧ storing.blk.state ≠ .wBegin ∧ storing.blk.state ≠ .rBegin) :=
  ⟨⟨_, rfl⟩, ⟨_, rfl, by decide⟩,
    ⟨_, rfl, by decide, rfl, (by show some _ = some _; decide), rfl, by decide, by decide⟩⟩

/-- A T_BEGIN, with another master about to write or not: the clause on the other registers asks for no such write. -/
theorem witness_ResetAndTheDevice_begin :
    (withDevice device (busy .rBegin [])).device = some device ∧ device.otherWrites = [] ∧
    device.InStep (busy .rBegin []).params (busy .rBegin []).blk ∧ (busy .rBegin []).blk.state = .rBegin :=
  ⟨rfl, rfl, trivial, rfl⟩

theorem witness_ParametersNeverChange : ∃ t, step (busy .wData [0x00#8]) = .next t := ⟨_, rfl⟩

/-- Every control state is met outside reset, on both channels. -/
theorem witness_PortsOfEachState (st : FsmState) : (busy st []).rstAsserted = false ∧ (busy st []).blk.state = st :=
  ⟨rfl, rfl⟩

theorem witness_ResponseOnlyWhenDone :
    base.blk.done = false ∧ ({ base with blk := { Block.reset with done := true } } : State).blk.done = true := by decide

/-- An ENC of 0 just completed. -/
def finished : State :=
  { base with blk := { Block.reset with done := true, resp_ok := true, resp_val := 0x80#8 } }

theorem witness_ResponseHoldsUntilAcceptance :
    finished.Inv ∧ finished.blk.done = true ∧ finished.requests = [] ∧ finished.rstAsserted = false ∧
    ∃ t, step finished = .next t :=
  ⟨⟨⟨fun h => absurd rfl h, fun _ => .enc rfl ⟨rfl, by decide, rfl⟩, fun h => absurd h (by decide),
      fun h => absurd h (by decide), fun h => absurd h (by decide)⟩, fun _ h => by cases h⟩,
    rfl, rfl, rfl, _, rfl⟩

/-- The verify phase of a WRV of -128, with the reference device in place. -/
def verifying (data : Byte) : State :=
  withDevice { device with rx := [0x7F#8] }
    { base with blk := { Block.reset with state := .rRead, op_r := 0b011#3, data_r := data, vfy_r := true,
                                          navail_r := 0x01#8 } }

/-- The invariant holds in the middle of a verify, with the reference device in place. -/
theorem witness_verifying_inv (data : Byte) : (verifying data).Inv :=
  ⟨⟨fun _ => rfl, fun h => Bool.noConfusion h, fun h => Bool.noConfusion h,
      fun _ => ⟨.inr ⟨rfl, rfl⟩, rfl⟩, fun _ => show 0x01#8 ≠ 0x00#8 by decide⟩,
    fun d h => by cases h; exact ⟨by decide, show ∀ c ∈ device.mem, c.1 = 0xF8 ∨ c.1 = 0xF9 by decide⟩⟩

theorem witness_StepKeepsInvariant : (verifying 0x32#8).Inv ∧ ∃ t, step (verifying 0x32#8) = .next t :=
  ⟨witness_verifying_inv _, _, rfl⟩

theorem witness_VerifyOfMinus128NeverSucceeds :
    (verifying 0x80#8).Inv ∧ (verifying 0x80#8).rstAsserted = false ∧
    (verifying 0x80#8).params.verifyAgainst = .requested ∧ (verifying 0x80#8).blk.state ≠ .idle ∧
    (verifying 0x80#8).blk.op_r = 0b011#3 ∧ (verifying 0x80#8).blk.data_r = 0x80#8 ∧
    ∃ t, step (verifying 0x80#8) = .next t ∧ t.blk.done = true :=
  ⟨witness_verifying_inv _, rfl, rfl, by decide, rfl, rfl, _, rfl, rfl⟩

/-- The duties are met at reset, with a reference device in the middle of a read, and in a busy general machine. -/
theorem witness_NoStopUnderTheDuties :
    (State.reset.DutiesHeld ∧ State.reset.TransportCompletes) ∧
    ((verifying 0x32#8).DutiesHeld ∧ (verifying 0x32#8).TransportCompletes) :=
  ⟨⟨⟨rfl, rfl⟩, ⟨by decide, fun _ h => by cases h⟩⟩,
    ⟨⟨rfl, rfl⟩, ⟨by decide, fun d h => by cases h; exact List.cons_ne_nil _ _⟩⟩⟩

theorem witness_OperationEndsWithinTenSteps :
    (busy .wBegin []).rst = [] ∧ (busy .wBegin []).DutiesHeld ∧ (busy .wBegin []).TransportCompletes ∧
    (busy .wBegin []).blk.state ≠ .idle :=
  ⟨rfl, ⟨rfl, rfl⟩, ⟨by decide, fun _ h => by cases h⟩, by decide⟩

/-- Two machines that differ in a finished response and in working registers. -/
theorem witness_NothingCrossesOperations :
    (idle [0x320003#24] []).blk.state = .idle ∧
    ({ Block.reset with done := true, resp_err := 4#3, rd_r := 0xB3#8, status_r := 0x02#8 } : Block).state = .idle ∧
    (idle [0x320003#24] []).rstAsserted = false ∧ (idle [0x320003#24] []).requests ≠ [] := by decide

/-- A write cycle in two machines that differ in what an earlier operation left behind. -/
theorem witness_StepKeepsAgreement :
    (busy .wData []).blk.AgreesWith
      { (busy .wData []).blk with status_r := 0x02#8, navail_r := 0x01#8, rd_r := 0xB3#8, resp_err := 4#3 } :=
  ⟨rfl, rfl, fun h => Bool.noConfusion h, rfl, rfl, rfl, rfl, fun _ => rfl⟩

/-- Offered requests and prepared answers, on both channels. -/
theorem witness_WrOperation (status : Byte) :
    (idle [0xB50102#24] [0#8, 0#8, 0#8, status]).Offers (encode (.wr 0xB5#8 0x01#8)) ∧
    (idle [0xB50102#24] [0#8, 0#8, 0#8, status]).Answers [0#8, 0#8, 0#8, status] :=
  ⟨⟨⟨rfl, rfl⟩, rfl, show some _ = some _ by decide⟩, ⟨rfl, rfl, [], rfl⟩⟩

/-- No byte, and a byte with count 1 or 255. -/
theorem witness_RdOperation :
    ((idle [0x000104#24] [0#8, 0#8, 0#8, 0#8, 0#8]).Offers (encode (.rd 0x00#8 0x01#8)) ∧
      (idle [0x000104#24] [0#8, 0#8, 0#8, 0#8, 0#8]).Answers [0#8, 0#8, 0#8, 0#8, 0#8]) ∧
    (∀ count ∈ [0x01#8, 0xFF#8], count ≠ 0x00#8 ∧
      (idle [0x000004#24] [0#8, 0#8, 2#8, 0#8, count, 0xE4#8]).Offers (encode (.rd 0x00#8 0x00#8)) ∧
      (idle [0x000004#24] [0#8, 0#8, 2#8, 0#8, count, 0xE4#8]).Answers [0#8, 0#8, 2#8, 0#8, count, 0xE4#8]) :=
  ⟨⟨⟨by decide, rfl, by decide⟩, ⟨rfl, rfl, [], rfl⟩⟩,
    fun count h => ⟨by revert count; decide, ⟨⟨rfl, rfl⟩, rfl, show some _ = some _ by decide⟩, ⟨rfl, rfl, [], rfl⟩⟩⟩

/-- The three paths: status 1, count 0, and count 1 or 255. -/
theorem witness_WrvOperation (results : List Byte) :
    (idle [0x320003#24] results).Offers (encode (.wrv 0x32#8 0x00#8)) ∧ (idle [0x320003#24] results).Answers results ∧
    0x01#8 ≠ 0x00#8 ∧ 0xFF#8 ≠ 0x00#8 :=
  ⟨⟨by constructor <;> rfl, rfl, by show some _ = some _; decide⟩, ⟨rfl, rfl, [], by simp [idle]⟩, by decide, by decide⟩

theorem witness_WriteEndStores :
    storing.rstAsserted = false ∧ storing.blk.state = .wEnd ∧ storing.transport.exclusive = true ∧
    storing.device = some deviceInWrite ∧ deviceInWrite.InStep storing.params storing.blk :=
  ⟨rfl, rfl, rfl, rfl, by show some _ = some _; decide⟩

theorem witness_OnlyWriteEndStores :
    (withDevice device (busy .wBegin [])).rstAsserted = false ∧ (busy .wBegin []).blk.state ≠ .wEnd ∧
    (withDevice device (busy .wBegin [])).device = some device ∧ device.otherWrites = [] ∧
    ∃ t, step (withDevice device (busy .wBegin [])) = .next t :=
  ⟨rfl, by decide, rfl, rfl, _, rfl⟩

/-- A request presented to a ready block, with the reference device `d`. -/
def offering (w : ReqWord) (d : RefDevice) : State := withDevice d (idle [w] [])

/-- The reference device with one register uncertain and `k` bytes left unread. -/
def deviceUncertain (k : Nat) : RefDevice := { device with mem := [(0xF8, 0x80#8)], rx := List.replicate k 0xB2#8 }

/-- An RD of a certain register, channel 0, and of an uncertain one, channel 1, with 0, 1 and 254 bytes left unread. -/
theorem witness_ReadReturnsRegister (k : Nat) :
    ((offering 0x000004#24 (deviceUncertain k)).Offers (encode (.rd 0x00#8 0x00#8)) ∧
      (offering 0x000104#24 (deviceUncertain k)).Offers (encode (.rd 0x00#8 0x01#8))) ∧
    (∀ w, (offering w (deviceUncertain k)).transport.exclusive = true ∧
      (offering w (deviceUncertain k)).device = some (deviceUncertain k)) ∧
    (deviceUncertain k).otherWrites = [] ∧
    ((deviceUncertain 0).rx.length < 255 ∧ (deviceUncertain 1).rx.length < 255 ∧ (deviceUncertain 254).rx.length < 255) ∧
    memRead (deviceUncertain k).mem (selectByte params 0x00#8) = some 0x80#8 ∧
    memRead (deviceUncertain k).mem (selectByte params 0x01#8) = none :=
  ⟨⟨⟨⟨rfl, rfl⟩, rfl, show some _ = some _ by decide⟩, ⟨⟨rfl, rfl⟩, rfl, show some _ = some _ by decide⟩⟩,
    fun _ => ⟨rfl, rfl⟩, rfl, by simp only [deviceUncertain, List.length_replicate]; omega, rfl, rfl⟩

/-- T-SRC-15: 50 read back under the mask 0x01 is 51, a mismatch; the plain device gives a match; and so does 0 under the
mask 0x80, since 0x00 decodes to 0 as well. -/
theorem witness_CorruptedReadBack (mask : Byte) :
    (offering 0x320003#24 { device with corrupt := mask }).Offers (encode (.wrv 0x32#8 0x00#8)) ∧
    (offering 0x000003#24 { device with corrupt := mask }).Offers (encode (.wrv 0x00#8 0x00#8)) ∧
    (∀ w, (offering w { device with corrupt := mask }).transport.exclusive = true ∧
      (offering w { device with corrupt := mask }).device = some { device with corrupt := mask } ∧
      (offering w { device with corrupt := mask }).params.verifyAgainst = .requested) ∧
    device.otherWrites = [] ∧ device.rx = [] ∧
    Codec.decode (Codec.encode 0x32#8 ^^^ 0x01#8) = 0x33#8 ∧ Codec.decode (Codec.encode 0x32#8 ^^^ 0x00#8) = 0x32#8 ∧
    Codec.decode (Codec.encode 0x00#8 ^^^ 0x80#8) = 0x00#8 :=
  ⟨⟨⟨rfl, rfl⟩, rfl, show some _ = some _ by decide⟩, ⟨⟨rfl, rfl⟩, rfl, show some _ = some _ by decide⟩,
    fun _ => ⟨rfl, rfl, rfl⟩, rfl, rfl, by decide, by decide, by decide⟩

/-- A request followed by an RD of channel 0, presented to a ready block with the reference device. -/
def thenRead (w : ReqWord) : State := withDevice device (idle [w, 0x000004#24] [])

/-- Program P2's first two requests, and the same with a WR. -/
theorem witness_WriteThenRead :
    ((thenRead 0x320002#24).Ready ∧ (thenRead 0x320002#24).rst = [] ∧ (thenRead 0x320002#24).transport.exclusive = true ∧
      (thenRead 0x320002#24).device = some device ∧
      (thenRead 0x320002#24).requests = encode (.wr 0x32#8 0x00#8) :: encode (.rd 0x00#8 0x00#8) :: []) ∧
    ((thenRead 0x320003#24).Ready ∧ (thenRead 0x320003#24).rst = [] ∧ (thenRead 0x320003#24).transport.exclusive = true ∧
      (thenRead 0x320003#24).device = some device ∧
      (thenRead 0x320003#24).requests = encode (.wrv 0x32#8 0x00#8) :: encode (.rd 0x00#8 0x00#8) :: []) ∧
    device.corrupt = 0x00#8 ∧ device.otherWrites = [] ∧ device.rx = [] := by decide

/-- The reference device with another master's write of `x` to channel 0 between the block's first two transactions. -/
def disturbed (x : Byte) : RefDevice := { device with otherWrites := [] :: [((0x00#8).getLsbD 0, x)] :: [] }

/-- The first read-back matches the Command, the second differs. -/
theorem witness_VerifySeesOtherMaster (x : Byte) :
    (withDevice (disturbed x) (idle [0x320003#24] [])).Offers (encode (.wrv 0x32#8 0x00#8)) ∧
    (withDevice (disturbed x) (idle [0x320003#24] [])).transport.exclusive = true ∧
    (withDevice (disturbed x) (idle [0x320003#24] [])).device = some (disturbed x) ∧
    (disturbed x).corrupt = 0x00#8 ∧ (disturbed x).rx = [] ∧
    (disturbed x).otherWrites = [] :: [((0x00#8).getLsbD 0, x)] :: [] ∧
    Codec.decode 0xB2#8 = 0x32#8 ∧ Codec.decode 0xB3#8 ≠ 0x32#8 :=
  ⟨⟨⟨rfl, rfl⟩, rfl, show some _ = some _ by decide⟩, rfl, rfl, rfl, rfl, rfl, by decide, by decide⟩

/-- The hypotheses on the count and on what came later: the least count, the T-RD-7 count, the greatest one, and a T_BEGIN
after a reset at R_AVAIL or R_READ. -/
theorem witness_CyclesAppearAsFrames :
    0x01#8 ≠ 0x00#8 ∧ 0x02#8 ≠ 0x00#8 ∧ 0xFF#8 ≠ 0x00#8 ∧
    ([⟨.tBegin 0x48#7, 0x00#8, none⟩] : List Issue).head?.map Issue.prim ≠ some .tRead ∧
    ([⟨.tBegin 0x48#7, 0x00#8, none⟩] : List Issue).head?.map Issue.prim ≠ some .tAvailable := by decide

/-- T-RD-7 on the bus (rules R107, R170): a count of 2 makes no difference to the frame. -/
theorem test_frame_count_two :
    busFrames (issuesOf (pollPrimitives params 0x01#8 ++ [.tRead]) [0x00#8, 0x00#8, 0x00#8, 0x00#8, 0x02#8, 0xFF#8]) =
      [.start, .transfer 0x90#8, .ack, .transfer 0xF9#8, .ack, .repeatedStart, .transfer 0x91#8, .ack,
        .transfer 0xFF#8, .nack, .stop] := by decide

/-- The T_REQUEST step with the reference device: the record shows the byte of the register pointed at (rule R80), behind a
byte that a reset left unread (T-RST-3). -/
theorem test_request_shows_byte :
    (match step (withDevice { device with ptr := 0xF8#8, rx := [0xB2#8] } (busy .rReq [])) with
      | .next t => t.transport.issued.map Issue.taken
      | _ => []) = [some 0x80#8] := by decide

end Sys2Proof.Tests
end

namespace Sys2Proof.Machine

open Sys2Proof.Config (Params)

/-! ### The signed values of bytes (00_scope.md rule R14) and the range of `decode` (40_codec.md rule R127) -/

/-- Rule R14: `byte8` and `sint8` are inverse on the integers a byte stands for. -/
theorem sint8_byte8 {i : Int} (lo : -128 ≤ i) (hi : i ≤ 127) : sint8 (byte8 i) = i := by
  rw [sint8, byte8, BitVec.toInt_ofInt]
  exact Int.bmod_eq_of_le (by omega) (by omega)

/-- The magnitude field has 7 bits (rule R100). -/
theorem Codec.magnitudeOf_le (b : Byte) : Codec.magnitudeOf b ≤ 127 :=
  Nat.le_of_lt_succ (b.extractLsb' 0 7).isLt

/-- The signed value of a decoded byte: its magnitude, negative without the sign bit (rules R124, R126). -/
theorem Codec.sint8_decode (b : Byte) :
    sint8 (Codec.decode b) = if Codec.signOf b then (Codec.magnitudeOf b : Int) else -(Codec.magnitudeOf b : Int) := by
  have hm := Codec.magnitudeOf_le b
  cases hs : Codec.signOf b <;> simp only [Codec.decode, hs] <;> exact sint8_byte8 (by omega) (by omega)

/-- Rule R127: every decoded value lies in [-127, 127]. -/
theorem Codec.sint8_decode_range (b : Byte) : -127 ≤ sint8 (Codec.decode b) ∧ sint8 (Codec.decode b) ≤ 127 := by
  have hm := Codec.magnitudeOf_le b
  rw [Codec.sint8_decode]
  split <;> omega

/-- Rule R127: the byte of -128 is no decoded value, since it lies below the range. -/
theorem Codec.decode_ne_minus128 (b : Byte) : Codec.decode b ≠ 0x80#8 := by
  intro h
  have lo : -127 ≤ sint8 0x80#8 := h ▸ (Codec.sint8_decode_range b).1
  exact absurd lo (by decide)

/-! ### The verify target and the R_READ writes (41_transport.md rules R154, R159) -/

theorem Block.verifyTarget_requested {p : Params} {b : Block} (h : p.verifyAgainst = .requested) :
    b.verifyTarget p = b.data_r := by
  simp only [Block.verifyTarget, h]

/-- The verify target of the two settings of rule R10. -/
theorem Block.verifyTarget_eq (p : Params) (b : Block) :
    b.verifyTarget p = if p.verifyAgainst = .requested then b.data_r else Codec.sat b.data_r := by
  cases h : p.verifyAgainst <;> simp [Block.verifyTarget, h]

section ReadWrites
variable {p : Params} {b : Block} {res : Byte}

/-- The R_READ writes of an RD. -/
theorem Block.transition_read (hs : b.state = .rRead) (hv : b.vfy_r = false) :
    b.transition p res = { b with rd_r := res }.finish true (Codec.decode res) .ok := by
  simp only [Block.transition, hs, Block.readDone, hv, Block.plainReadDone]

/-- The R_READ writes of a verify whose read-back is the target. -/
theorem Block.transition_verified (hs : b.state = .rRead) (hv : b.vfy_r = true)
    (same : Codec.decode res = b.verifyTarget p) :
    b.transition p res = { b with rd_r := res }.finish true (Codec.decode res) .ok := by
  simp only [Block.transition, hs, Block.readDone, hv]
  exact Block.verifyDone_same same

/-- The R_READ writes of a verify whose read-back differs from the target. -/
theorem Block.transition_mismatch (hs : b.state = .rRead) (hv : b.vfy_r = true)
    (differs : Codec.decode res ≠ b.verifyTarget p) :
    b.transition p res = { b with rd_r := res }.finish false (Codec.decode res) .verifyMismatch := by
  simp only [Block.transition, hs, Block.readDone, hv]
  exact Block.verifyDone_differs differs

end ReadWrites

/-- The R_READ step once its `T_READ` is complete. -/
theorem step_rRead {s s' : State} {b : Byte} (hr : s.rstAsserted = false) (hs : s.blk.state = .rRead)
    (hc : performPrimitive .tRead s.tick = .completes b s') :
    step s = .next { s' with blk := s.blk.transition s.params b } :=
  step_move hr (by simp [hs]) (by simp [Block.primitive, hs]) hc

/-! ### How a step ends an operation with success -/

/-- The rows of rule R161 that end an operation in progress with success. -/
inductive Block.SuccessRow (p : Params) (res : Byte) (b : Block) : Prop where
  | written (state : b.state = .wEnd) (op : b.op_r = 0b010#3)
  | read (state : b.state = .rRead) (vfy : b.vfy_r = false)
  | verified (state : b.state = .rRead) (vfy : b.vfy_r = true) (same : Codec.decode res = b.verifyTarget p)

/-- A row that ends an operation with `resp_ok = 1` is the end of a WR, of an RD, or of a verify that matched. -/
theorem Block.Row.success {p : Params} {res : Byte} {b b' : Block} (row : Block.Row p res b b') (busy : b.done = false)
    (ended : b'.done = true) (ok : b'.resp_ok = true) : b.SuccessRow p res := by
  cases row with
  | written hs _ ho _ => exact .written hs ho
  | read hs hv _ => exact .read hs hv
  | verified hs hv same _ => exact .verified hs hv same
  | writeFailed _ _ eq | noByte _ _ eq | mismatch _ _ _ eq => simp [eq] at ok
  | pass _ _ eq | pointer _ eq | turned _ _ _ eq | available _ _ eq => simp [eq, busy] at ended

/-- In R_READ a WRV verifies (rule R37). -/
theorem Block.Consistent.vfy_of_wrv {p : Params} {b : Block} (h : b.Consistent p) (hs : b.state = .rRead)
    (ho : b.op_r = 0b011#3) : b.vfy_r = true := by
  obtain ⟨⟨rd, _⟩ | ⟨_, hv⟩, _⟩ := h.reading (by rw [hs]; rfl)
  · exact absurd (ho.symm.trans rd) (by decide)
  · exact hv

/-- A WRV ends with success only by a read-back that decodes to its target (rules R156, R159). -/
theorem Block.Consistent.wrv_success {p : Params} {res : Byte} {b : Block} (h : b.Consistent p)
    (busy : b.state ≠ .idle) (ho : b.op_r = 0b011#3) (ended : (b.transition p res).done = true)
    (ok : (b.transition p res).resp_ok = true) : Codec.decode res = b.verifyTarget p := by
  cases (b.transition_row p res busy).success (h.busy busy) ended ok with
  | written _ wr => exact absurd (ho.symm.trans wr) (by decide)
  | read hs hv => exact absurd (hv.symm.trans (h.vfy_of_wrv hs ho)) (by decide)
  | verified _ _ same => exact same

/-! ### Bytes at a fixed distance -/

/-- A byte changes when a number that is not 0 modulo 256 is added to it. -/
theorem ne_add_ofNat (b : Byte) {n : Nat} (pos : 0 < n) (lt : n < 256) : b ≠ b + BitVec.ofNat 8 n := by
  intro h
  have zero : BitVec.ofNat 8 n = 0#8 := left_eq_add.1 h
  have value : n % 256 = 0 := congrArg BitVec.toNat zero
  exact pos.ne' (Nat.mod_eq_of_lt lt ▸ value)

/-! ### The obligations -/

/-- Settles O49: success needs a decoded byte equal to the target, which is -128 itself, and no byte decodes to it. -/
theorem verifyOfMinus128NeverSucceeds : Obligations.VerifyOfMinus128NeverSucceeds := by
  intro s t inv released requested busy op data stepped ended
  cases step_next stepped with
  | reset _ _ rst _ => simp [State.rstAsserted, rst] at released
  | wait _ idle _ _ _ => exact absurd idle busy
  | accept _ _ _ idle _ _ _ => exact absurd idle busy
  | move _ res _ _ _ _ _ eq =>
    subst eq
    refine Bool.eq_false_iff.2 fun ok => Codec.decode_ne_minus128 res ?_
    calc Codec.decode res = s.blk.verifyTarget s.params := inv.block.wrv_success busy op ended ok
      _ = s.blk.data_r := Block.verifyTarget_requested requested
      _ = 0x80#8 := data

/-- Settles O28, by the kind of read and, for a verify, by the comparison with the target. -/
theorem readStep : Obligations.ReadStep := by
  intro s s' b released state completes
  rw [step_rRead released state completes, ← Block.verifyTarget_eq]
  refine ⟨fun rd => ?_, fun vfy same => ?_, fun vfy differs => ?_⟩
  · rw [Block.transition_read state rd]; rfl
  · rw [Block.transition_verified state vfy same]; rfl
  · rw [Block.transition_mismatch state vfy differs]; rfl

/-- Settles O40: `REG_SEL1` lies between 1 and 255 above `REG_SEL0`, whatever the two free values are. -/
theorem selectBytesDiffer : Obligations.SelectBytesDiffer :=
  ne_add_ofNat Config.regSel0 (Nat.succ_pos _) (Nat.succ_lt_succ Config.regSelGap.isLt)

end Sys2Proof.Machine

namespace Sys2Proof.Machine

open Sys2Proof.Config (Params)

/-! ### What an acceptance can write (41_transport.md rules R150 to R158) -/

/-- The writes `act` of an acceptance, whatever the registers were before: the operation ends in this step with a row of
rule R163's table, or a write cycle or a read cycle begins. -/
inductive Acceptance (act : Block → Block) : Prop where
  | ends (op : BitVec 3) (ch data : Byte) (ok : Bool) (val : Byte) (err : ErrorCode)
      (row : ∀ p b, ((Block.latch b op ch data).finish ok val err).OutcomeRow p)
      (eq : ∀ b, act b = (b.latch op ch data).finish ok val err)
  | beginsWrite (op : BitVec 3) (ch data : Byte) (write : op = 2#3 ∨ op = 3#3) (valid : validChannel ch = true)
      (eq : ∀ b, act b = { b.latch op ch data with enc_r := Codec.encode data, state := .wBegin })
  | beginsRead (ch data : Byte) (valid : validChannel ch = true)
      (eq : ∀ b, act b = { b.latch 4#3 ch data with state := .rBegin })

theorem Block.acceptEnc_acceptance (data ch : Byte) : Acceptance (fun b => b.acceptEnc data ch) :=
  .ends 0#3 ch data _ _ _ (fun _ _ => .enc rfl ⟨rfl, rfl, rfl⟩) fun _ => rfl

theorem Block.acceptDec_acceptance (data ch : Byte) : Acceptance (fun b => b.acceptDec data ch) :=
  .ends 1#3 ch data _ _ _ (fun _ _ => .dec rfl ⟨rfl, rfl, rfl⟩) fun _ => rfl

theorem Block.acceptIllegal_acceptance (r : Request) : Acceptance (fun b => b.acceptIllegal r) :=
  .ends r.op r.ch r.data _ _ _ (fun _ _ => .illegal ⟨rfl, rfl, rfl⟩) fun _ => rfl

theorem Block.acceptWrite_acceptance (op : BitVec 3) (data ch : Byte) (write : op = 2#3 ∨ op = 3#3) :
    Acceptance (fun b => b.acceptWrite op data ch) := by
  cases hv : validChannel ch with
  | false =>
    exact .ends op ch data false 0#8 .invalidChannel (fun _ _ => .writeInvalidChannel write hv ⟨rfl, rfl, rfl⟩)
      fun b => by simp only [Block.acceptWrite, hv]
  | true => exact .beginsWrite op ch data write hv fun b => by simp only [Block.acceptWrite, hv]

theorem Block.acceptRead_acceptance (data ch : Byte) : Acceptance (fun b => b.acceptRead data ch) := by
  cases hv : validChannel ch with
  | false =>
    exact .ends 4#3 ch data false 0x80#8 .invalidChannel (fun _ _ => .readInvalidChannel rfl hv ⟨rfl, rfl, rfl⟩)
      fun b => by simp only [Block.acceptRead, hv, errorSentinel]
  | true => exact .beginsRead ch data hv fun b => by simp only [Block.acceptRead, hv]

/-- The acceptance of every request word, legal or illegal. -/
theorem Block.acceptWord_acceptance (w : ReqWord) : Acceptance (Block.acceptWord w) := by
  unfold Block.acceptWord
  cases decode w with
  | illegal _ => exact acceptIllegal_acceptance _
  | legal i =>
    cases i with
    | enc data ch => exact acceptEnc_acceptance data ch
    | dec data ch => exact acceptDec_acceptance data ch
    | wr data ch => exact acceptWrite_acceptance _ data ch (.inl rfl)
    | wrv data ch => exact acceptWrite_acceptance _ data ch (.inr rfl)
    | rd data ch => exact acceptRead_acceptance data ch

/-! ### The step by control state, stops included -/

theorem step_waiting {s : State} (released : s.rstAsserted = false) (idle : s.blk.state = .idle)
    (none : s.requests = []) : step s = idleStep id s.tick := by
  rw [step_released released, stepReleased_nil (by simpa using none)]
  simp [quietStep, idle]

theorem step_accepting {s : State} {w : ReqWord} {rest : List ReqWord} (released : s.rstAsserted = false)
    (idle : s.blk.state = .idle) (presented : s.requests = w :: rest) :
    step s = idleStep (State.accept (Block.acceptWord w)) s.tick := by
  rw [step_released released, stepReleased_cons (w := w) (rest := rest) (by simpa using presented)]
  simp [requestStep, idle]

theorem step_busy {s : State} (released : s.rstAsserted = false) (busy : s.blk.state ≠ .idle) :
    step s = sequencer s.tick := by
  rw [step_released released, stepReleased_busy (by simpa using busy)]

/-! ### The parameters and the device across a step (10_state.md rule R47, 20_memory.md rule R61) -/

/-- Every cell is one of a register that exists, as `RefDevice.RegistersOk` asks of the reference device. -/
def CellsExist (p : Params) (m : List Host.Cell) : Prop := ∀ c ∈ m, c.1 = p.regSel0.toNat ∨ c.1 = p.regSel1.toNat

theorem CellsExist.memWrite {p : Params} {m : List Host.Cell} {r : Byte} (hm : CellsExist p m)
    (hr : isRegister p r = true) (v : Byte) : CellsExist p (memWrite m r v) := by
  intro c hc
  rcases mem_memWrite hc with rfl | hc
  · simp only [isRegister, Bool.or_eq_true, beq_iff_eq] at hr
    exact hr.imp (congrArg BitVec.toNat) (congrArg BitVec.toNat)
  · exact hm c hc

/-- `REG_SEL` of either channel names a register that exists. -/
@[simp] theorem isRegister_registerOf (p : Params) (channel : Bool) : isRegister p (registerOf p channel) = true := by
  cases channel <;> simp [isRegister, registerOf]

theorem CellsExist.otherMasterWrites {p : Params} (ws : List (Bool × Byte)) {m : List Host.Cell}
    (hm : CellsExist p m) : CellsExist p (otherMasterWrites p ws m) := by
  induction ws generalizing m with
  | nil => exact hm
  | cons w rest ih => exact ih (hm.memWrite (isRegister_registerOf p w.1) w.2)

/-- Whatever an answer of the reference device stores, its registers stay the two that exist, in canonical form. -/
theorem RefDevice.Stores.registersOk {p : Params} {d d' : RefDevice} (stores : RefDevice.Stores p d d')
    (ok : d.RegistersOk p) : d'.RegistersOk p := by
  have exist : CellsExist p d.mem := ok.exist
  suffices after : Memory.wf d'.mem = true ∧ CellsExist p d'.mem from ⟨after.1, after.2⟩
  cases stores with
  | same eq => rw [eq]; exact ⟨ok.canonical, exist⟩
  | stored r v hr eq => rw [eq]; exact ⟨Memory.wf_memWrite _ r v ok.canonical, exist.memWrite hr v⟩
  | others ws eq => rw [eq]; exact ⟨Memory.wf_otherMasterWrites p ws _ ok.canonical, exist.otherMasterWrites ws⟩

theorem RefDevice.RegistersOk.forget {p : Params} {d : RefDevice} (ok : d.RegistersOk p) (r : Byte) :
    (d.forget r).RegistersOk p :=
  ⟨Memory.wf_memForget _ r ok.canonical, fun c hc => ok.exist c (mem_memForget hc)⟩

/-- From `s` to `t` the parameters stay, the reference device stays in place or absent, and its registers stay the two
that exist. -/
structure State.KeepsSite (s t : State) : Prop where
  params : t.params = s.params
  present : t.device = none ↔ s.device = none
  registers : ∀ d', t.device = some d' → ∃ d, s.device = some d ∧ (d.RegistersOk s.params → d'.RegistersOk s.params)

theorem State.KeepsSite.of_eq {s t : State} (params : t.params = s.params) (device : t.device = s.device) :
    s.KeepsSite t :=
  ⟨params, by rw [device], fun d' h => ⟨d', device ▸ h, id⟩⟩

theorem State.KeepsSite.trans {s t u : State} (st : s.KeepsSite t) (tu : t.KeepsSite u) : s.KeepsSite u where
  params := tu.params.trans st.params
  present := tu.present.trans st.present
  registers d'' h := by
    obtain ⟨d', hd', ok'⟩ := tu.registers d'' h
    obtain ⟨d, hd, ok⟩ := st.registers d' hd'
    exact ⟨d, hd, fun h => st.params ▸ ok' (st.params ▸ ok h)⟩

theorem performPrimitive_keepsSite {prim : Primitive} {s s' : State} {res : Byte}
    (h : performPrimitive prim s = .completes res s') : s.KeepsSite s' := by
  obtain ⟨completed, completedBy⟩ := performPrimitive_completes h
  cases completedBy with
  | scripted _ before after _ _ => exact .of_eq completed.params (after.trans before.symm)
  | drawn before after _ _ _ => exact .of_eq completed.params (after.trans before.symm)
  | reference d d' _ before after _ reply =>
    refine ⟨completed.params, by simp [before, after], fun e he => ⟨d, before, ?_⟩⟩
    cases after.symm.trans he
    exact (RefDevice.answer_stores reply).registersOk

theorem State.forgetAddressed_keepsSite (s : State) : s.KeepsSite s.forgetAddressed where
  params := rfl
  present := Option.map_eq_none_iff
  registers d' h := by
    obtain ⟨d, hd, rfl⟩ := Option.map_eq_some_iff.1 h
    exact ⟨d, hd, fun ok => ok.forget _⟩

/-- A primitive abandoned by a reset is carried out as the transport completes it, or not at all (rule R231). -/
theorem State.carryOut_cases (s : State) :
    s.carryOut = s ∨ ∃ prim res, performPrimitive prim s = .completes res s.carryOut := by
  cases hp : s.blk.primitive s.params with
  | none => exact .inl (by simp only [State.carryOut, hp])
  | some prim =>
    cases hc : performPrimitive prim s with
    | completes res s' => exact .inr ⟨prim, res, by simp only [State.carryOut, hp, hc]⟩
    | never | refused _ => exact .inl (by simp only [State.carryOut, hp, hc])

theorem State.carryOut_keepsSite (s : State) : s.KeepsSite s.carryOut := by
  rcases s.carryOut_cases with same | ⟨_, _, completes⟩
  · rw [same]; exact .of_eq rfl rfl
  · exact performPrimitive_keepsSite completes

theorem State.abandon_keepsSite (s : State) (carriedOut : Bool) : s.KeepsSite (s.abandon carriedOut) := by
  unfold State.abandon
  split
  · exact .of_eq rfl rfl
  · cases carriedOut with
    | false => exact s.forgetAddressed_keepsSite
    | true => exact s.carryOut_keepsSite.trans s.carryOut.forgetAddressed_keepsSite

/-- Every step keeps the parameters and what is fixed of the reference device. -/
theorem step_keepsSite {s t : State} (h : step s = .next t) : s.KeepsSite t := by
  have ticked : s.KeepsSite s.tick := .of_eq rfl rfl
  cases step_next h with
  | reset c _ _ eq =>
    subst eq
    exact (ticked.trans (s.tick.abandon_keepsSite c)).trans (.of_eq rfl rfl)
  | wait _ _ _ _ eq => subst eq; exact .of_eq rfl rfl
  | accept _ _ _ _ _ _ eq => subst eq; exact .of_eq rfl rfl
  | move _ _ _ _ _ _ performed eq =>
    subst eq
    exact (ticked.trans (performPrimitive_keepsSite performed)).trans (.of_eq rfl rfl)

/-! ### The invariant of the block's registers -/

theorem FsmState.cycles_disjoint {st : FsmState} (write : st.inWriteCycle = true) : st.inReadCycle ≠ true := by
  cases st <;> simp_all [FsmState.inWriteCycle, FsmState.inReadCycle]

theorem FsmState.Passes.same_cycle {a a' : FsmState} (h : a.Passes a') :
    (a.inWriteCycle = true ∧ a'.inWriteCycle = true) ∨
      (a.inReadCycle = true ∧ a'.inReadCycle = true ∧ a' ≠ .rRead) := by
  cases h <;> simp [FsmState.inWriteCycle, FsmState.inReadCycle]

section Consistent
variable {p : Params} {b : Block}

theorem Block.consistent_reset (p : Params) : Block.reset.Consistent p where
  busy h := absurd rfl h
  finished h := Bool.noConfusion h
  writing h := Bool.noConfusion h
  reading h := Bool.noConfusion h
  available h := FsmState.noConfusion h

theorem Block.Consistent.of_finish {ok : Bool} {val : Byte} {err : ErrorCode}
    (row : (b.finish ok val err).OutcomeRow p) : (b.finish ok val err).Consistent p where
  busy h := absurd rfl h
  finished _ := row
  writing h := Bool.noConfusion h
  reading h := Bool.noConfusion h
  available h := FsmState.noConfusion h

theorem Block.Consistent.of_writing (cycle : b.state.inWriteCycle = true) (pending : b.done = false)
    (writing : (b.op_r = 2#3 ∨ b.op_r = 3#3) ∧ validChannel b.ch_r = true ∧ b.enc_r = Codec.encode b.data_r ∧
      b.vfy_r = false) : b.Consistent p where
  busy _ := pending
  finished h := absurd (pending.symm.trans h) Bool.false_ne_true
  writing _ := writing
  reading h := absurd h (FsmState.cycles_disjoint cycle)
  available h := by rw [h] at cycle; exact Bool.noConfusion cycle

theorem Block.Consistent.of_reading (cycle : b.state.inReadCycle = true) (pending : b.done = false)
    (reading : ((b.op_r = 4#3 ∧ b.vfy_r = false) ∨ (b.op_r = 3#3 ∧ b.vfy_r = true)) ∧ validChannel b.ch_r = true)
    (available : b.state = .rRead → b.navail_r ≠ 0#8) : b.Consistent p where
  busy _ := pending
  finished h := absurd (pending.symm.trans h) Bool.false_ne_true
  writing h := absurd cycle (FsmState.cycles_disjoint h)
  reading _ := reading
  available := available

theorem Acceptance.consistent {act : Block → Block} (h : Acceptance act) (p : Params) (b : Block) :
    (act b).Consistent p := by
  cases h with
  | ends _ _ _ _ _ _ row eq => rw [eq]; exact .of_finish (row p b)
  | beginsWrite _ _ _ write valid eq => rw [eq]; exact .of_writing rfl rfl ⟨write, valid, rfl, rfl⟩
  | beginsRead _ _ valid eq => rw [eq]; exact .of_reading rfl rfl ⟨.inl ⟨rfl, rfl⟩, valid⟩ nofun

/-- Each row of rule R161 keeps the invariant: an end is a row of rule R163's table, and a cycle goes on as it began. -/
theorem Block.Row.consistent {res : Byte} {b' : Block} (row : Block.Row p res b b') (inv : b.Consistent p)
    (busy : b.state ≠ .idle) : b'.Consistent p := by
  have pending : b.done = false := inv.busy busy
  cases row with
  | pass nxt passes eq =>
    subst eq
    rcases passes.same_cycle with ⟨before, after⟩ | ⟨before, after, notRead⟩
    · exact .of_writing after pending (inv.writing before)
    · exact .of_reading after pending (inv.reading before) fun h => absurd h notRead
  | pointer state eq =>
    subst eq
    exact .of_reading rfl pending (inv.reading (by rw [state]; rfl)) nofun
  | writeFailed state status eq =>
    obtain ⟨op, ch, _, _⟩ := inv.writing (by rw [state]; rfl)
    subst eq
    exact .of_finish (.writeFailed op ch status ⟨rfl, rfl, rfl⟩)
  | written state status op eq =>
    obtain ⟨_, ch, _, _⟩ := inv.writing (by rw [state]; rfl)
    subst eq
    exact .of_finish (.written op ch status ⟨rfl, rfl, rfl⟩)
  | turned state status notWr eq =>
    obtain ⟨op, ch, _, _⟩ := inv.writing (by rw [state]; rfl)
    subst eq
    exact .of_reading rfl pending ⟨.inr ⟨op.resolve_left notWr, rfl⟩, ch⟩ nofun
  | noByte state count eq =>
    obtain ⟨⟨op, _⟩ | ⟨op, _⟩, ch⟩ := inv.reading (by rw [state]; rfl)
    · subst eq; exact .of_finish (.readUnavailable op ch count ⟨rfl, rfl, rfl⟩)
    · subst eq; exact .of_finish (.readBackUnavailable op ch count ⟨rfl, rfl, rfl⟩)
  | available state count eq =>
    subst eq
    exact .of_reading rfl pending (inv.reading (by rw [state]; rfl)) fun _ => count
  | read state vfy eq =>
    obtain ⟨⟨op, _⟩ | ⟨_, verifying⟩, ch⟩ := inv.reading (by rw [state]; rfl)
    · subst eq; exact .of_finish (.readDone op ch (inv.available state) ⟨rfl, rfl, rfl⟩)
    · exact absurd (vfy.symm.trans verifying) Bool.false_ne_true
  | verified state vfy same eq =>
    obtain ⟨⟨_, reading⟩ | ⟨op, _⟩, ch⟩ := inv.reading (by rw [state]; rfl)
    · exact absurd (reading.symm.trans vfy) Bool.false_ne_true
    · subst eq; exact .of_finish (.verified op ch (inv.available state) same ⟨rfl, rfl, rfl⟩)
  | mismatch state vfy differs eq =>
    obtain ⟨⟨_, reading⟩ | ⟨op, _⟩, ch⟩ := inv.reading (by rw [state]; rfl)
    · exact absurd (reading.symm.trans vfy) Bool.false_ne_true
    · subst eq; exact .of_finish (.verifyMismatch op ch (inv.available state) differs ⟨rfl, rfl, rfl⟩)

end Consistent

theorem step_keeps_consistent {s t : State} (inv : s.blk.Consistent s.params) (h : step s = .next t) :
    t.blk.Consistent s.params := by
  cases step_next h with
  | reset _ _ _ eq => subst eq; exact Block.consistent_reset _
  | wait _ _ _ _ eq => subst eq; exact inv
  | accept w _ _ _ _ _ eq => subst eq; exact (Block.acceptWord_acceptance w).consistent _ _
  | move _ res _ _ busy _ _ eq => subst eq; exact (s.blk.transition_row s.params res busy).consistent inv busy

/-! ### What a step writes (10_state.md rules R30 and R41) -/

/-- An acceptance leaves the three working registers of the cycles alone, writes `enc_r` for a WR or WRV only, and writes
a response only where it ends the operation. -/
theorem Acceptance.writes {act : Block → Block} (h : Acceptance act) (b : Block) :
    ((act b).status_r = b.status_r ∧ (act b).navail_r = b.navail_r ∧ (act b).rd_r = b.rd_r) ∧
    ((act b).enc_r ≠ b.enc_r → (act b).op_r = 2#3 ∨ (act b).op_r = 3#3) ∧
    ((act b).done = true ∨ (act b).response ≠ b.response → (act b).done = true ∧ (act b).state = .idle) := by
  cases h with
  | ends _ _ _ _ _ _ _ eq => simp [eq]
  | beginsWrite _ _ _ write _ eq => simp [eq, write, Block.response]
  | beginsRead _ _ _ eq => simp [eq, Block.response]

/-- Of the registers that are not latched at acceptance, each row of rule R161 writes only those of its state; `done` and
the response are written only by a row that ends the operation. -/
theorem Block.Row.writes {p : Params} {res : Byte} {b b' : Block} (row : Block.Row p res b b') :
    (b'.vfy_r ≠ b.vfy_r → b.state = .wEnd) ∧
    (b'.status_r ≠ b.status_r → b.state = .wEnd ∨ b.state = .rEnd) ∧
    (b'.navail_r ≠ b.navail_r → b.state = .rAvail) ∧
    (b'.rd_r ≠ b.rd_r → b.state = .rRead) ∧
    (b'.done ≠ b.done ∨ b'.response ≠ b.response → b'.done = true ∧ b'.state = .idle) := by
  cases row with
  | pass _ _ eq => simp [eq, Block.response]
  | pointer state eq | turned state _ _ eq | available state _ eq => simp [eq, state, Block.response]
  | writeFailed state _ eq | written state _ _ eq | noByte state _ eq | read state _ eq | verified state _ _ eq
  | mismatch state _ _ eq => simp [eq, state]

/-! ### Registers that agree (10_state.md rules R45, R46 and R50) -/

section Agreement
variable {p : Params} {b b' : Block}

theorem Block.AgreesWith.refl (b : Block) : b.AgreesWith b := ⟨rfl, rfl, fun _ => rfl, rfl, rfl, rfl, rfl, fun _ => rfl⟩

/-- An acceptance writes all that can be seen: it makes any two sets of registers agree. -/
theorem Acceptance.agrees {act : Block → Block} (h : Acceptance act) (b b' : Block) : (act b).AgreesWith (act b') := by
  cases h with
  | ends _ _ _ _ _ _ _ eq => rw [eq, eq]; exact ⟨rfl, rfl, fun _ => rfl, rfl, rfl, rfl, rfl, nofun⟩
  | beginsWrite _ _ _ _ _ eq => rw [eq, eq]; exact ⟨rfl, rfl, nofun, rfl, rfl, rfl, rfl, fun _ => rfl⟩
  | beginsRead _ _ _ eq => rw [eq, eq]; exact ⟨rfl, rfl, nofun, rfl, rfl, rfl, rfl, nofun⟩

/-- The primitive on the port is made of registers that agree. -/
theorem Block.AgreesWith.primitive (h : b.AgreesWith b') : b'.primitive p = b.primitive p := by
  unfold Block.primitive
  rw [h.state, h.ch]
  cases hs : b.state with
  | wData => rw [h.enc (by rw [hs]; rfl)]
  | _ => rfl

theorem Block.AgreesWith.verifyTarget (h : b.AgreesWith b') : b'.verifyTarget p = b.verifyTarget p := by
  simp only [Block.verifyTarget, h.data]

theorem Block.AgreesWith.finish (h : b.AgreesWith b') (ok : Bool) (val : Byte) (err : ErrorCode) :
    (b.finish ok val err).AgreesWith (b'.finish ok val err) :=
  ⟨rfl, rfl, fun _ => rfl, h.op, h.ch, h.data, h.vfy, nofun⟩

theorem Block.AgreesWith.moves (h : b.AgreesWith b') (nxt : FsmState)
    (cycle : nxt.inWriteCycle = true → b.state.inWriteCycle = true) :
    { b with state := nxt }.AgreesWith { b' with state := nxt } :=
  ⟨rfl, h.done, h.response, h.op, h.ch, h.data, h.vfy, fun w => h.enc (cycle w)⟩

theorem Block.AgreesWith.with_status_r (h : b.AgreesWith b') (v : Byte) :
    { b with status_r := v }.AgreesWith { b' with status_r := v } := { h with }

theorem Block.AgreesWith.with_navail_r (h : b.AgreesWith b') (v : Byte) :
    { b with navail_r := v }.AgreesWith { b' with navail_r := v } := { h with }

theorem Block.AgreesWith.with_rd_r (h : b.AgreesWith b') (v : Byte) :
    { b with rd_r := v }.AgreesWith { b' with rd_r := v } := { h with }

theorem Block.AgreesWith.endWrite (h : b.AgreesWith b') (status : Byte) :
    (b.endWrite status).AgreesWith (b'.endWrite status) := by
  by_cases failed : status ≠ 0#8
  · simp only [Block.endWrite, if_pos failed]
    exact (h.with_status_r status).finish ..
  · by_cases wr : b.op_r = 2#3
    · simp only [Block.endWrite, if_neg failed, if_pos wr, if_pos (h.op.trans wr)]
      exact (h.with_status_r status).finish ..
    · simp only [Block.endWrite, if_neg failed, if_neg wr, if_neg (h.op ▸ wr)]
      exact ⟨rfl, h.done, h.response, h.op, h.ch, h.data, rfl, nofun⟩

theorem Block.AgreesWith.verifyDone (h : b.AgreesWith b') (x : Option Byte) :
    (b.verifyDone p x).AgreesWith (b'.verifyDone p x) := by
  cases x with
  | none => exact h.finish ..
  | some x =>
    simp only [Block.verifyDone, h.verifyTarget]
    split <;> exact h.finish ..

theorem Block.AgreesWith.plainReadDone (h : b.AgreesWith b') (x : Option Byte) :
    (b.plainReadDone x).AgreesWith (b'.plainReadDone x) := by
  cases x <;> exact h.finish ..

theorem Block.AgreesWith.readDone (h : b.AgreesWith b') (x : Option Byte) :
    (b.readDone p x).AgreesWith (b'.readDone p x) := by
  simp only [Block.readDone, h.vfy]
  cases b.vfy_r with
  | false => exact h.plainReadDone x
  | true => exact h.verifyDone x

theorem Block.AgreesWith.checkAvailable (h : b.AgreesWith b') (count : Byte) :
    (b.checkAvailable p count).AgreesWith (b'.checkAvailable p count) := by
  unfold Block.checkAvailable
  split
  · exact (h.with_navail_r count).readDone none
  · exact (h.with_navail_r count).moves .rRead nofun

/-- The writes of every row of rule R161 are made of registers that agree, and of the result. -/
theorem Block.AgreesWith.transition (h : b.AgreesWith b') (res : Byte) :
    (b.transition p res).AgreesWith (b'.transition p res) := by
  unfold Block.transition
  rw [h.state]
  cases hs : b.state with
  | idle => exact h
  | wBegin => exact h.moves .wSel fun _ => hs ▸ rfl
  | wSel => exact h.moves .wData fun _ => hs ▸ rfl
  | wData => exact h.moves .wEnd fun _ => hs ▸ rfl
  | wEnd => exact h.endWrite res
  | rBegin => exact h.moves .rSel nofun
  | rSel => exact h.moves .rEnd nofun
  | rEnd => exact (h.with_status_r res).moves .rReq nofun
  | rReq => exact h.moves .rAvail nofun
  | rAvail => exact h.checkAvailable res
  | rRead => exact (h.with_rd_r res).readDone (some (Codec.decode res))

end Agreement

/-! ### Two machines with the same surroundings and registers that agree -/

section Agreeing
variable {s : State} {b : Block}

theorem State.carryOut_blk (s : State) : s.carryOut.blk = s.blk := by
  rcases s.carryOut_cases with same | ⟨_, _, completes⟩
  · rw [same]
  · exact (performPrimitive_completes completes).1.blk

theorem Block.AgreesWith.carryOut (h : s.blk.AgreesWith b) :
    ({ s with blk := b } : State).carryOut = { s.carryOut with blk := b } := by
  simp only [State.carryOut, h.primitive]
  cases s.blk.primitive s.params with
  | none => rfl
  | some prim =>
    simp only [performPrimitive_blk]
    cases performPrimitive prim s <;> rfl

theorem Block.AgreesWith.forgetAddressed (h : s.blk.AgreesWith b) :
    ({ s with blk := b } : State).forgetAddressed = { s.forgetAddressed with blk := b } := by
  simp only [State.forgetAddressed, h.ch]

theorem Block.AgreesWith.abandon (h : s.blk.AgreesWith b) (carriedOut : Bool) :
    ({ s with blk := b } : State).abandon carriedOut = { s.abandon carriedOut with blk := b } := by
  simp only [State.abandon, h.state]
  split
  · rfl
  · cases carriedOut with
    | false => exact h.forgetAddressed
    | true =>
      have h' : s.carryOut.blk.AgreesWith b := s.carryOut_blk.symm ▸ h
      simp only [h.carryOut, cond_true]
      exact h'.forgetAddressed

/-- A reset does the same to both machines. -/
theorem Block.AgreesWith.resetEvent (h : s.blk.AgreesWith b) (carriedOut : Bool) :
    resetEvent carriedOut { s with blk := b } = resetEvent carriedOut s := by
  simp only [Machine.resetEvent, h.abandon]

/-- Two IDLE machines stop alike, and go on in agreement if what the step does to them agrees. -/
theorem idleStep_agrees {act : State → State}
    (surroundings : act { s with blk := b } = { act s with blk := (act { s with blk := b }).blk })
    (blocks : (act s).blk.AgreesWith (act { s with blk := b }).blk) :
    AgreeingOutcomes (idleStep act s) (idleStep act { s with blk := b }) := by
  unfold idleStep
  cases s.transport.strayDone with
  | true => exact rfl
  | false => exact ⟨surroundings, blocks⟩

theorem sequencer_agrees (h : s.blk.AgreesWith b) :
    AgreeingOutcomes (sequencer s) (sequencer { s with blk := b }) := by
  simp only [sequencer, h.primitive]
  cases s.blk.primitive s.params with
  | none => exact ⟨rfl, h⟩
  | some prim =>
    simp only [performPrimitive_blk]
    cases performPrimitive prim s with
    | completes res s' => exact ⟨rfl, h.transition res⟩
    | never => exact rfl
    | refused why => exact rfl

/-- The step of an acceptance leaves nothing of the registers before it in view. -/
theorem accepting_agrees (released : s.rstAsserted = false) (idle : s.blk.state = .idle)
    (idle' : b.state = .idle) (presented : s.requests ≠ []) : AgreeingOutcomes (step s) (step { s with blk := b }) := by
  obtain ⟨w, rest, hq⟩ := List.exists_cons_of_ne_nil presented
  rw [step_accepting released idle hq, step_accepting (s := { s with blk := b }) released idle' hq]
  exact idleStep_agrees (s := s.tick) rfl ((Block.acceptWord_acceptance w).agrees _ _)

/-- The step of two machines that agree. -/
theorem step_agrees (h : s.blk.AgreesWith b) : AgreeingOutcomes (step s) (step { s with blk := b }) := by
  cases hr : s.rstAsserted with
  | true =>
    obtain ⟨c, rest, hc⟩ := rstAsserted_iff.1 hr
    rw [step_asserted hc, step_asserted (s := { s with blk := b }) hc]
    have same : resetEvent c ({ s with blk := b } : State).tick = resetEvent c s.tick :=
      Block.AgreesWith.resetEvent (s := s.tick) h c
    rw [same]
    exact ⟨rfl, .refl _⟩
  | false =>
    by_cases idle : s.blk.state = .idle
    · have idle' : b.state = .idle := h.state.trans idle
      by_cases none : s.requests = []
      · rw [step_waiting hr idle none, step_waiting (s := { s with blk := b }) hr idle' none]
        exact idleStep_agrees (s := s.tick) rfl h
      · exact accepting_agrees hr idle idle' none
    · rw [step_busy hr idle, step_busy (s := { s with blk := b }) hr (h.state ▸ idle)]
      exact sequencer_agrees (s := s.tick) h

end Agreeing

/-- A run whose first steps agree, and which agrees from every two machines that agree, agrees. -/
theorem run_succ_agrees {s s' : State} {k : Nat} (first : AgreeingOutcomes (step s) (step s'))
    (later : ∀ (t : State) (c : Block), t.blk.AgreesWith c → AgreeingOutcomes (run k t) (run k { t with blk := c })) :
    AgreeingOutcomes (run (k + 1) s) (run (k + 1) s') := by
  cases hs : step s with
  | next t =>
    cases hs' : step s' with
    | next u =>
      rw [hs, hs'] at first
      obtain ⟨same, agree⟩ := first
      rw [run_succ hs, run_succ hs', same]
      exact later t u.blk agree
    | fault _ | refused _ => rw [hs, hs'] at first; exact first.elim
  | fault f =>
    cases hs' : step s' with
    | fault g => rw [hs, hs'] at first; rw [run_fault hs, run_fault hs']; exact first
    | next _ | refused _ => rw [hs, hs'] at first; exact first.elim
  | refused f =>
    cases hs' : step s' with
    | refused g => rw [hs, hs'] at first; rw [run_refused hs, run_refused hs']; exact first
    | next _ | fault _ => rw [hs, hs'] at first; exact first.elim

theorem run_agrees (k : Nat) : ∀ (s : State) (b : Block), s.blk.AgreesWith b →
    AgreeingOutcomes (run k s) (run k { s with blk := b }) := by
  induction k with
  | zero => exact fun s b h => ⟨rfl, h⟩
  | succ k ih => exact fun s b h => run_succ_agrees (step_agrees h) ih

theorem Block.AgreesWith.hostView {s : State} {b : Block} (h : s.blk.AgreesWith b) :
    ({ s with blk := b } : State).hostView = s.hostView := by
  have response : ({ s with blk := b } : State).readResponse = s.readResponse := by
    simp only [State.readResponse, h.done]
    cases hd : s.blk.done with
    | false => rfl
    | true => exact congrArg some (h.response hd)
  have ready : ({ s with blk := b } : State).reqReady = s.reqReady := by
    simp only [State.reqReady, State.rstAsserted, h.state]
  simp only [State.hostView, response, ready, h.done]

theorem Block.AgreesWith.transportPort {s : State} {b : Block} (h : s.blk.AgreesWith b) :
    ({ s with blk := b } : State).transportPort = s.transportPort := by
  have valid : ({ s with blk := b } : State).tValid = s.tValid := by
    simp only [State.tValid, State.rstAsserted, h.state]
  simp only [State.transportPort, valid, h.primitive]

/-- Outcomes that agree look the same to the host and to the transport. -/
theorem AgreeingOutcomes.sameOutside {o o' : Host.Outcome State Fault Refusal} (h : AgreeingOutcomes o o') :
    SameOutside o o' := by
  cases o with
  | next t =>
    cases o' with
    | next u =>
      obtain ⟨same, agree⟩ := h
      exact ⟨same, agree.state, (congrArg State.hostView same).trans agree.hostView,
        (congrArg State.transportPort same).trans agree.transportPort⟩
    | fault _ | refused _ => exact h
  | fault _ => cases o' <;> exact h
  | refused _ => cases o' <;> exact h

/-! ### The ports in each state (30_encoding.md rules R97 and R99) -/

/-- `REG_SEL[ch[0]]`, written out (rules R8, R169). -/
theorem selectByte_eq (p : Params) (ch : Byte) :
    selectByte p ch = if ch.getLsbD 0 = true then p.regSel1 else p.regSel0 := by
  unfold selectByte
  cases ch.getLsbD 0 <;> rfl

theorem State.tValid_busy {s : State} (released : s.rstAsserted = false) (busy : s.blk.state ≠ .idle) :
    s.tValid = true := by
  simp [State.tValid, released, busy]

theorem State.reqReady_busy {s : State} (busy : s.blk.state ≠ .idle) : s.reqReady = false := by
  simp [State.reqReady, busy]

theorem State.transportPort_issuing {s : State} {prim : Primitive} (released : s.rstAsserted = false)
    (issue : s.blk.primitive s.params = some prim) : s.transportPort = some prim.port := by
  have busy : s.blk.state ≠ .idle := fun idle => by simp [Block.primitive_eq_none.2 idle] at issue
  simp only [State.transportPort, State.tValid_busy released busy, issue, Option.map_some]

/-! ### The obligations of 10_state.md -/

/-- Settles O45: the block's part by what a step can be, the device's part by what an answer of the device can store. -/
theorem stepKeepsInvariant : Obligations.StepKeepsInvariant := by
  intro s t inv h
  obtain ⟨params, _, registers⟩ := step_keepsSite h
  refine ⟨params ▸ step_keeps_consistent inv.block h, fun d' hd' => ?_⟩
  obtain ⟨d, hd, keeps⟩ := registers d' hd'
  exact params ▸ keeps (inv.device d hd)

/-- Settles O60, by the control state: reset, wait, acceptance, or the operation in progress. -/
theorem stepKeepsAgreement : Obligations.StepKeepsAgreement :=
  fun _ _ => step_agrees

/-- Settles O29: the transport records the one primitive it completes, and is not used in IDLE. -/
theorem onePrimitivePerStep : Obligations.OnePrimitivePerStep := by
  intro s t released h
  cases step_next h with
  | reset _ _ rst _ => simp [State.rstAsserted, rst] at released
  | wait _ idle _ _ eq => subst eq; exact ⟨fun _ => rfl, fun busy => absurd idle busy⟩
  | accept _ _ _ idle _ _ eq => subst eq; exact ⟨fun _ => rfl, fun busy => absurd idle busy⟩
  | move prim res _ _ busy issue performed eq =>
    subst eq
    exact ⟨fun idle => absurd idle busy, fun _ => ⟨prim, res, issue, (performPrimitive_completes performed).1.issued⟩⟩

/-- Settles O30: a wait writes nothing, and an acceptance and a row of rule R161 write what the table says. -/
theorem registersWrittenOnlyAsTabled : Obligations.RegistersWrittenOnlyAsTabled := by
  intro s t released h
  cases step_next h with
  | reset _ _ rst _ => simp [State.rstAsserted, rst] at released
  | wait _ _ _ _ eq => subst eq; simp +contextual
  | accept w rest _ idle _ requests eq =>
    subst eq
    obtain ⟨⟨status, navail, rd⟩, enc, resp⟩ := (Block.acceptWord_acceptance w).writes s.blk
    have accepted : s.blk.state = .idle ∧ s.requests ≠ [] := ⟨idle, by simp [requests]⟩
    exact ⟨fun _ => accepted, fun h => ⟨accepted.1, accepted.2, enc h⟩, fun _ => .inl accepted,
      absurd status, absurd navail, absurd rd, fun _ _ => accepted, fun _ done => (resp (.inl done)).2,
      fun h => resp (.inr h)⟩
  | move _ res _ _ busy _ _ eq =>
    subst eq
    obtain ⟨op, ch, data, enc⟩ := s.blk.transition_latched s.params res busy
    obtain ⟨vfy, status, navail, rd, resp⟩ := (s.blk.transition_row s.params res busy).writes
    refine ⟨fun h => ?_, absurd enc, fun h => .inr (vfy h), status, navail, rd, fun before after => ?_,
      fun before after => ?_, fun h => resp (.inr h)⟩
    · obtain hop | hch | hdata := h
      · exact absurd op hop
      · exact absurd ch hch
      · exact absurd data hdata
    · have ended := (resp (.inl (by rw [before]; exact Bool.eq_false_iff.1 after))).1
      exact absurd (after.symm.trans ended) Bool.false_ne_true
    · exact (resp (.inl (by rw [before]; exact Bool.ne_false_iff.2 after))).2

/-- Settles O39, by what a step can be. -/
theorem parametersNeverChange : Obligations.ParametersNeverChange := by
  intro s t h
  obtain ⟨params, present, _⟩ := step_keepsSite h
  exact ⟨params, present⟩

/-- Settles O48: the acceptance makes the two machines agree, every later step keeps that, and machines that agree look
the same. -/
theorem nothingCrossesOperations : Obligations.NothingCrossesOperations :=
  fun _ _ k idle idle' released presented =>
    (run_succ_agrees (accepting_agrees released idle idle' presented) (run_agrees k)).sameOutside

/-- Settles O36: `State.reset` holds rule R30's values. -/
theorem resetValues : Obligations.ResetValues := rfl

/-- Settles O41, one clause per primitive of rule R32. -/
theorem portsOfEachState : Obligations.PortsOfEachState := by
  intro s released
  have port {prim : Primitive} (issue : s.blk.primitive s.params = some prim) : s.transportPort = some prim.port :=
    State.transportPort_issuing released issue
  refine ⟨fun idle => ?_, fun busy => ⟨State.reqReady_busy busy, State.tValid_busy released busy⟩,
    ?_, ?_, fun hs => ?_, fun hs => ?_, fun hs => ?_, fun hs => ?_, fun hs => ?_, fun hs => ?_⟩
  · simp [State.reqReady, State.tValid, State.transportPort, released, idle]
  · rintro (hs | hs)
    all_goals exact port (prim := .tBegin Config.devAddr) (by simp only [Block.primitive, hs])
  · rw [← selectByte_eq]
    rintro (hs | hs)
    all_goals exact port (prim := .tWrite (selectByte s.params s.blk.ch_r)) (by simp only [Block.primitive, hs])
  · exact port (prim := .tWrite s.blk.enc_r) (by simp only [Block.primitive, hs])
  · exact port (prim := .tEnd true) (by simp only [Block.primitive, hs])
  · exact port (prim := .tEnd false) (by simp only [Block.primitive, hs])
  · exact port (prim := .tRequest Config.devAddr Config.readCount true) (by simp only [Block.primitive, hs])
  · exact port (prim := .tAvailable) (by simp only [Block.primitive, hs])
  · exact port (prim := .tRead) (by simp only [Block.primitive, hs])

/-- Settles O44: the block's registers at reset are consistent, and no reference device is in place. -/
theorem invariantAtReset : Obligations.InvariantAtReset :=
  ⟨Block.consistent_reset _, nofun⟩

end Sys2Proof.Machine

namespace Sys2Proof.Machine

open Sys2Proof.Config (Params)

/-! ### The codec's round trip (40_codec.md rules R121, R132, R139) -/

theorem sint8_injective {a b : Byte} (h : sint8 a = sint8 b) : a = b :=
  BitVec.eq_of_toInt_eq h

theorem sint8_range (c : Byte) : -128 ≤ sint8 c ∧ sint8 c ≤ 127 := by
  have lo := BitVec.le_toInt c
  have hi := BitVec.toInt_lt (x := c)
  unfold sint8
  omega

/-- Rule R121: a saturated value lies in the logical range. -/
theorem Codec.saturated_range (c : Byte) : -127 ≤ Codec.saturated c ∧ Codec.saturated c ≤ 127 := by
  have range := sint8_range c
  unfold Codec.saturated
  split <;> omega

theorem Codec.sint8_sat (c : Byte) : sint8 (Codec.sat c) = Codec.saturated c := by
  by_cases h : c = 0x80#8
  · rw [h]; decide
  · have ne : sint8 c ≠ -128 := fun e => h (sint8_injective (e.trans (by decide)))
    simp only [Codec.sat, Codec.saturated, h, ne, if_false]

/-- The encoded byte as a number: 128 for the sign bit, plus the magnitude (rules R120, R122, R123). -/
theorem Codec.toNat_encode (c : Byte) :
    (Codec.encode c).toNat = Codec.signBit (Codec.saturated c) * 128 + (Codec.saturated c).natAbs := by
  obtain ⟨lo, hi⟩ := Codec.saturated_range c
  have small : (Codec.saturated c).natAbs < 2 ^ 7 := by omega
  have sign : Codec.signBit (Codec.saturated c) ≤ 1 := by unfold Codec.signBit; split <;> omega
  have magnitude : Codec.magnitude (Codec.saturated c) = (Codec.saturated c).natAbs :=
    (Nat.and_two_pow_sub_one_eq_mod _ 7).trans (Nat.mod_eq_of_lt small)
  rw [Codec.encode, magnitude, ← Nat.shiftLeft_add_eq_or_of_lt small, Nat.shiftLeft_eq, BitVec.toNat_ofNat]
  omega

/-- The sign and the magnitude of an encoded Command are those of its saturated value (rules R122, R123). -/
theorem Codec.fields_encode (c : Byte) :
    Codec.signOf (Codec.encode c) = decide (0 ≤ Codec.saturated c) ∧
      Codec.magnitudeOf (Codec.encode c) = (Codec.saturated c).natAbs := by
  have range := Codec.saturated_range c
  have value := Codec.toNat_encode c
  constructor
  · rw [Codec.signOf, BitVec.getLsbD, Nat.testBit_eq_decide_div_mod_eq, value, decide_eq_decide, Codec.signBit]
    split <;> omega
  · rw [Codec.magnitudeOf, BitVec.extractLsb'_toNat, value, Nat.shiftRight_zero, Codec.signBit]
    split <;> omega

/-- Rule R139: a Command comes back saturated. -/
theorem Codec.decode_encode (c : Byte) : Codec.decode (Codec.encode c) = Codec.sat c := by
  obtain ⟨sign, magnitude⟩ := Codec.fields_encode c
  apply sint8_injective
  rw [Codec.sint8_decode, Codec.sint8_sat, sign, magnitude]
  simp only [decide_eq_true_eq]
  split <;> omega

/-! ### The acceptance of an offered request (30_encoding.md rule R95, 41_transport.md rules R150 to R157) -/

/-- Every instruction decodes from its own word. -/
theorem decode_encode (i : Instr) : decode (encode i) = .legal i := by
  have fields : Laws.Fields.Statement i := by
    cases i with
    | enc data ch => exact Laws.Fields.enc data ch
    | dec data ch => exact Laws.Fields.dec data ch
    | wr data ch => exact Laws.Fields.wr data ch
    | wrv data ch => exact Laws.Fields.wrv data ch
    | rd data ch => exact Laws.Fields.rd data ch
  rw [decode, fields.2]
  cases i <;> rfl

theorem validChannel_of {ch : Byte} (h : ch = 0x00#8 ∨ ch = 0x01#8) : validChannel ch = true := by
  simpa [validChannel] using h

section AcceptWord
variable {ch : Byte} (valid : ch = 0x00#8 ∨ ch = 0x01#8) (data : Byte) (b : Block)
include valid

theorem Block.acceptWord_wr : b.acceptWord (encode (.wr data ch)) =
    { b.latch 2#3 ch data with enc_r := Codec.encode data, state := .wBegin } := by
  simp only [Block.acceptWord, decode_encode, Block.acceptWrite, validChannel_of valid]

theorem Block.acceptWord_wrv : b.acceptWord (encode (.wrv data ch)) =
    { b.latch 3#3 ch data with enc_r := Codec.encode data, state := .wBegin } := by
  simp only [Block.acceptWord, decode_encode, Block.acceptWrite, validChannel_of valid]

theorem Block.acceptWord_rd : b.acceptWord (encode (.rd data ch)) = { b.latch 4#3 ch data with state := .rBegin } := by
  simp only [Block.acceptWord, decode_encode, Block.acceptRead, validChannel_of valid]

end AcceptWord

/-! ### How the two cycles end (41_transport.md rules R153, R154, R159) -/

section CycleEnds
variable {p : Params} {b : Block} {x : Byte}

/-- The W_END writes of a WR whose status is 0. -/
theorem Block.endWrite_wr (op : b.op_r = 2#3) : b.endWrite 0#8 = { b with status_r := 0#8 }.finish true 0#8 .ok := by
  simp [Block.endWrite, op]

/-- The W_END writes of a WRV whose status is 0: the read cycle follows. -/
theorem Block.endWrite_wrv (op : b.op_r = 3#3) :
    b.endWrite 0#8 = { b with status_r := 0#8, vfy_r := true, state := .rBegin } := by
  simp [Block.endWrite, op]

/-- The end of an RD that got a byte. -/
theorem Block.readDone_plain (vfy : b.vfy_r = false) : b.readDone p (some x) = b.finish true x .ok := by
  simp only [Block.readDone, vfy, Block.plainReadDone]

/-- The end of a verify that got a byte: the comparison with the target (rule R159). -/
theorem Block.readDone_verify (vfy : b.vfy_r = true) :
    b.readDone p (some x) =
      b.finish (decide (x = b.verifyTarget p)) x (if x = b.verifyTarget p then .ok else .verifyMismatch) := by
  simp only [Block.readDone, vfy]
  by_cases same : x = b.verifyTarget p
  · rw [Block.verifyDone_same same, decide_eq_true same, if_pos same]
  · rw [Block.verifyDone_differs same, decide_eq_false same, if_neg same]

/-- A read cycle that got a byte ends the operation with it, as an RD or as a verify of either outcome. -/
theorem Block.readDone_finish (p : Params) (b : Block) (x : Byte) :
    ∃ ok err, b.readDone p (some x) = b.finish ok x err := by
  cases vfy : b.vfy_r with
  | false => exact ⟨_, _, readDone_plain vfy⟩
  | true => exact ⟨_, _, readDone_verify vfy⟩

end CycleEnds

/-! ### The reference device (20_memory.md rule R80) -/

section Device
variable {p : Params} {n : Nat} {d d' : RefDevice}

theorem RefDevice.otherMaster_none (alone : d.otherWrites = []) : d.otherMaster p = d := by
  simp only [RefDevice.otherMaster, alone]

theorem RefDevice.otherMaster_some {now : List (Bool × Byte)} {later : List (List (Bool × Byte))}
    (acts : d.otherWrites = now :: later) :
    d.otherMaster p = { d with otherWrites := later, mem := otherMasterWrites p now d.mem } := by
  simp only [RefDevice.otherMaster, acts]

/-- What a T_REQUEST of register `r` fetches from the device registers `m`: the byte `v`, which is the register's, or
drawn and kept if that was uncertain (log entry 9). `m'` are the registers after it. -/
inductive Fetches (m : List Host.Cell) (r v : Byte) (m' : List Host.Cell) : Prop where
  | certain (held : memRead m r = some v) (eq : m' = m)
  | drawn (n : Nat) (uncertain : memRead m r = none) (value : v = Config.deviceByte n) (eq : m' = memWrite m r v)

/-- The device's answer to the block's T_REQUEST with the pointer at a register that exists. -/
theorem RefDevice.answer_request (p : Params) (n : Nat) {d : RefDevice} (exist : isRegister p d.ptr = true) :
    ∃ v m, Fetches d.mem d.ptr v m ∧
      d.answer p n (.tRequest Config.devAddr Config.readCount true) =
        .answers (Config.transportAnswer n) { d with rx := d.rx ++ [v], mem := m } true := by
  cases held : memRead d.mem d.ptr with
  | some v => exact ⟨v, d.mem, .certain held rfl, answer_request_known exist held⟩
  | none => exact ⟨_, _, .drawn n held rfl rfl, answer_request_drawn exist held⟩

section Fetches
variable {m m' : List Host.Cell} {r v : Byte} (h : Fetches m r v m')
include h

theorem Fetches.held : memRead m' r = some v := by
  cases h with
  | certain held eq => rw [eq, held]
  | drawn _ _ _ eq => rw [eq, memRead_memWrite_same]

theorem Fetches.others {a : Byte} (other : a ≠ r) : memRead m' a = memRead m a := by
  cases h with
  | certain _ eq => rw [eq]
  | drawn _ _ _ eq => rw [eq, memRead_memWrite_other _ _ _ _ other]

theorem Fetches.of_certain {x : Byte} (held : memRead m r = some x) : v = x ∧ m' = m := by
  cases h with
  | certain held' eq => exact ⟨Option.some.inj (held'.symm.trans held), eq⟩
  | drawn _ uncertain _ _ => rw [uncertain] at held; cases held

theorem Fetches.of_uncertain (uncertain : memRead m r = none) : ∃ n, v = Config.deviceByte n := by
  cases h with
  | certain held _ => rw [uncertain] at held; cases held
  | drawn n _ value _ => exact ⟨n, value⟩

/-- A register whose byte is certain keeps it. -/
theorem Fetches.keeps_certain {a x : Byte} (held : memRead m a = some x) : memRead m' a = some x := by
  by_cases same : a = r
  · subst same
    rw [(h.of_certain held).2, held]
  · rw [h.others same, held]

end Fetches

/-- With no other master, only T_END(1) stores: any other answer leaves the registers alone, or is a fetch. -/
theorem RefDevice.answer_mem {prim : Primitive} {res : Byte} {drew : Bool} (noStore : prim ≠ .tEnd true)
    (alone : d.otherWrites = []) (h : d.answer p n prim = .answers res d' drew) :
    d'.mem = d.mem ∨ ∃ v, Fetches d.mem d.ptr v d'.mem := by
  cases prim with
  | tBegin a7 =>
    simp only [RefDevice.answer, RefDevice.begins, otherMaster_none alone] at h
    split at h <;> cases h
    exact .inl rfl
  | tWrite b8 =>
    simp only [RefDevice.answer, RefDevice.writes] at h
    split at h <;> cases h
    exact .inl rfl
  | tEnd stop =>
    cases stop with
    | true => exact absurd rfl noStore
    | false =>
      simp only [RefDevice.answer, RefDevice.endsPointer] at h
      split at h <;> cases h
      exact .inl rfl
  | tRequest a7 count stop =>
    simp only [RefDevice.answer, RefDevice.requests] at h
    split at h
    · split at h <;> rename_i held <;> cases h
      · exact .inl rfl
      · exact .inr ⟨_, .drawn n held rfl rfl⟩
    · cases h
  | tAvailable =>
    simp only [RefDevice.answer, RefDevice.counts] at h
    split at h <;> cases h <;> exact .inl rfl
  | tRead =>
    simp only [RefDevice.answer, RefDevice.reads] at h
    split at h <;> cases h
    exact .inl rfl

/-- Rule R32: only W_END issues T_END(1). -/
theorem Block.primitive_ne_tEnd {b : Block} {prim : Primitive} (notEnd : b.state ≠ .wEnd)
    (issue : b.primitive p = some prim) : prim ≠ .tEnd true := by
  rintro rfl
  cases hs : b.state <;> simp_all [Block.primitive]

end Device

/-! ### Runs beside the reference device -/

/-- Of a machine out of reset, with its duties met and the reference device in place: all that the coming steps depend
on. What it leaves out is the record and the draw counter. -/
structure State.Attached (t : State) (p : Params) (q : List ReqWord) (b : Block) (d : RefDevice) : Prop where
  params : t.params = p
  requests : t.requests = q
  blk : t.blk = b
  device : t.device = some d
  rst : t.rst = []
  exclusive : t.transport.exclusive = true
  quiet : t.transport.strayDone = false

/-- What stands on the response port once a run ended an operation. -/
theorem State.Attached.finished {t : State} {p : Params} {q : List ReqWord} {b : Block} {d : RefDevice} {ok : Bool}
    {val : Byte} {err : ErrorCode} (at_t : t.Attached p q (b.finish ok val err) d) :
    t.blk.state = .idle ∧ t.blk.done = true ∧ t.blk.Responds ok val err.code := by
  rw [at_t.blk]
  exact ⟨rfl, rfl, rfl, rfl, rfl⟩

/-- What stands on the response port once a run ended a verify that got a byte (rule R159). -/
theorem State.Attached.verified {t : State} {p : Params} {q : List ReqWord} {b : Block} {d : RefDevice} {x : Byte}
    (at_t : t.Attached p q (b.readDone p (some x)) d) (vfy : b.vfy_r = true) :
    t.blk.state = .idle ∧ t.blk.done = true ∧ t.blk.resp_val = x ∧
      (x = t.blk.verifyTarget p → t.blk.resp_ok = true ∧ t.blk.resp_err = 0#3) ∧
      (x ≠ t.blk.verifyTarget p → t.blk.resp_ok = false ∧ t.blk.resp_err = 4#3) := by
  rw [Block.readDone_verify vfy] at at_t
  obtain ⟨idle, done, ok, val, err⟩ := at_t.finished
  have target : t.blk.verifyTarget p = b.verifyTarget p := by rw [at_t.blk]; rfl
  rw [target, ok, err]
  exact ⟨idle, done, val, fun same => ⟨decide_eq_true same, congrArg ErrorCode.code (if_pos same)⟩,
    fun differs => ⟨decide_eq_false differs, congrArg ErrorCode.code (if_neg differs)⟩⟩

/-- `k` steps lead from `s` to the requests `q`, the registers `b` and the device `d`. -/
def State.LeadsTo (s : State) (k : Nat) (q : List ReqWord) (b : Block) (d : RefDevice) : Prop :=
  ∃ t, run k s = .next t ∧ t.Attached s.params q b d

theorem rstAsserted_of_nil {s : State} (h : s.rst = []) : s.rstAsserted = false := by
  simp only [State.rstAsserted, h]

/-- A run one step longer. -/
theorem run_append_step {t u : State} (last : step t = .next u) :
    ∀ {k : Nat} {s : State}, run k s = .next t → run (k + 1) s = .next u
  | 0, s, h => by
    cases h
    exact run_succ last
  | k + 1, s, h => by
    cases first : step s with
    | next s' => rw [run_succ first] at h ⊢; exact run_append_step last h
    | fault _ => rw [run_fault first] at h; cases h
    | refused _ => rw [run_refused first] at h; cases h

section Runs
variable {s : State} {k : Nat} {q : List ReqWord} {b : Block} {d e : RefDevice}

/-- The acceptance of the presented word. -/
theorem State.LeadsTo.accept {w : ReqWord} (h : s.LeadsTo k (w :: q) b d) (idle : b.state = .idle) :
    s.LeadsTo (k + 1) q (b.acceptWord w) d := by
  obtain ⟨t, ht, at_t⟩ := h
  have accepted := step_accept (rstAsserted_of_nil at_t.rst) (by rw [at_t.blk, idle]) at_t.quiet at_t.requests
  exact ⟨_, run_append_step accepted ht, at_t.params, by simp [at_t.requests], by simp [at_t.blk], at_t.device,
    by simp [at_t.rst], at_t.exclusive, at_t.quiet⟩

/-- The step of a state other than IDLE, as the device answers its primitive at the draw counter's value `n`. -/
theorem State.LeadsTo.move {prim : Primitive} (h : s.LeadsTo k q b d) (issue : b.primitive s.params = some prim) :
    ∃ n, ∀ {res d' drew}, d.answer s.params n prim = .answers res d' drew →
      s.LeadsTo (k + 1) q (b.transition s.params res) d' := by
  obtain ⟨t, ht, at_t⟩ := h
  refine ⟨t.transport.draws, fun {res d' drew} answer => ?_⟩
  have busy : b.state ≠ .idle := fun idle => by simp [Block.primitive_eq_none.2 idle] at issue
  rw [← at_t.params, ← at_t.blk] at issue
  rw [← at_t.params] at answer
  have moved := step_reference (rstAsserted_of_nil at_t.rst) (at_t.blk ▸ busy) issue at_t.exclusive at_t.device answer
  exact ⟨_, run_append_step moved ht, at_t.params, at_t.requests, by rw [at_t.blk, at_t.params], rfl,
    by simp [at_t.rst], at_t.exclusive, at_t.quiet⟩

/-- The step of a state other than IDLE whose primitive the device answers alike at every value of the draw counter. -/
theorem State.LeadsTo.answered {prim : Primitive} {b' : Block} {d' : RefDevice} (h : s.LeadsTo k q b d)
    (issue : b.primitive s.params = some prim)
    (answer : ∀ n, ∃ res drew, d.answer s.params n prim = .answers res d' drew ∧ b.transition s.params res = b') :
    s.LeadsTo (k + 1) q b' d' := by
  obtain ⟨n, next⟩ := h.move issue
  obtain ⟨_, _, reply, rfl⟩ := answer n
  exact next reply

/-! The steps of the two cycles (41_transport.md rules R153 and R154), one lemma per control state.
`e` is the device once other masters have acted before the transaction (rule R82). -/

theorem State.LeadsTo.wBegin (h : s.LeadsTo k q b d) (hs : b.state = .wBegin) (before : d.otherMaster s.params = e) :
    s.LeadsTo (k + 1) q { b with state := .wSel } { e with txn := some [] } :=
  h.answered (prim := .tBegin _) (by simp only [Block.primitive, hs]) fun _ =>
    ⟨_, _, before ▸ RefDevice.answer_tBegin, by simp only [Block.transition, hs]⟩

theorem State.LeadsTo.wSel (h : s.LeadsTo k q b d) (hs : b.state = .wSel) (opened : d.txn = some []) :
    s.LeadsTo (k + 1) q { b with state := .wData } { d with txn := some [selectByte s.params b.ch_r] } :=
  h.answered (prim := .tWrite _) (by simp only [Block.primitive, hs]) fun _ =>
    ⟨_, _, RefDevice.answer_tWrite opened _, by simp only [Block.transition, hs]⟩

theorem State.LeadsTo.wData {r : Byte} (h : s.LeadsTo k q b d) (hs : b.state = .wData) (selected : d.txn = some [r]) :
    s.LeadsTo (k + 1) q { b with state := .wEnd } { d with txn := some [r, b.enc_r] } :=
  h.answered (prim := .tWrite _) (by simp only [Block.primitive, hs]) fun _ =>
    ⟨_, _, RefDevice.answer_tWrite selected _, by simp only [Block.transition, hs]⟩

theorem State.LeadsTo.wEnd {r x : Byte} (h : s.LeadsTo k q b d) (hs : b.state = .wEnd) (written : d.txn = some [r, x])
    (exist : isRegister s.params r = true) :
    s.LeadsTo (k + 1) q (b.endWrite 0#8) { d with mem := memWrite d.mem r x, ptr := r, txn := none } :=
  h.answered (prim := .tEnd true) (by simp only [Block.primitive, hs]) fun _ =>
    ⟨_, _, RefDevice.answer_endWrite written exist, by simp only [Block.transition, hs]⟩

theorem State.LeadsTo.rBegin (h : s.LeadsTo k q b d) (hs : b.state = .rBegin) (before : d.otherMaster s.params = e) :
    s.LeadsTo (k + 1) q { b with state := .rSel } { e with txn := some [] } :=
  h.answered (prim := .tBegin _) (by simp only [Block.primitive, hs]) fun _ =>
    ⟨_, _, before ▸ RefDevice.answer_tBegin, by simp only [Block.transition, hs]⟩

theorem State.LeadsTo.rSel (h : s.LeadsTo k q b d) (hs : b.state = .rSel) (opened : d.txn = some []) :
    s.LeadsTo (k + 1) q { b with state := .rEnd } { d with txn := some [selectByte s.params b.ch_r] } :=
  h.answered (prim := .tWrite _) (by simp only [Block.primitive, hs]) fun _ =>
    ⟨_, _, RefDevice.answer_tWrite opened _, by simp only [Block.transition, hs]⟩

theorem State.LeadsTo.rEnd {r : Byte} (h : s.LeadsTo k q b d) (hs : b.state = .rEnd) (selected : d.txn = some [r]) :
    s.LeadsTo (k + 1) q { b with status_r := 0#8, state := .rReq } { d with ptr := r, txn := none } :=
  h.answered (prim := .tEnd false) (by simp only [Block.primitive, hs]) fun _ =>
    ⟨_, _, RefDevice.answer_endPointer selected, by simp only [Block.transition, hs]⟩

theorem State.LeadsTo.rReq (h : s.LeadsTo k q b d) (hs : b.state = .rReq) (exist : isRegister s.params d.ptr = true) :
    ∃ v m, Fetches d.mem d.ptr v m ∧
      s.LeadsTo (k + 1) q { b with state := .rAvail } { d with rx := d.rx ++ [v], mem := m } := by
  obtain ⟨n, next⟩ := h.move (prim := .tRequest Config.devAddr Config.readCount true)
    (by simp only [Block.primitive, hs])
  obtain ⟨v, m, fetches, answer⟩ := RefDevice.answer_request s.params n exist
  exact ⟨v, m, fetches, by simpa only [Block.transition, hs] using next answer⟩

theorem State.LeadsTo.rAvail (h : s.LeadsTo k q b d) (hs : b.state = .rAvail) (unread : d.rx ≠ [])
    (room : d.rx.length < 256) :
    s.LeadsTo (k + 1) q { b with navail_r := BitVec.ofNat 8 d.rx.length, state := .rRead } d := by
  have count : BitVec.ofNat 8 d.rx.length ≠ 0#8 := fun zero => by
    have mod : d.rx.length % 256 = 0 := congrArg BitVec.toNat zero
    exact unread (List.length_eq_zero_iff.1 (Nat.mod_eq_of_lt room ▸ mod))
  exact h.answered (prim := .tAvailable) (by simp only [Block.primitive, hs]) fun _ =>
    ⟨_, _, RefDevice.answer_available room, by simp only [Block.transition, hs, Block.checkAvailable, count, if_false]⟩

theorem State.LeadsTo.rRead {x : Byte} {rest : List Byte} (h : s.LeadsTo k q b d) (hs : b.state = .rRead)
    (unread : d.rx = x :: rest) :
    s.LeadsTo (k + 1) q ({ b with rd_r := x ^^^ d.corrupt }.readDone s.params (some (Codec.decode (x ^^^ d.corrupt))))
      { d with rx := rest } :=
  h.answered (prim := .tRead) (by simp only [Block.primitive, hs]) fun _ =>
    ⟨_, _, RefDevice.answer_tRead unread, by simp only [Block.transition, hs]⟩

/-- A whole write cycle: the device holds `enc_r` in the channel's register (rules R106, R153). -/
theorem State.LeadsTo.writeCycle (h : s.LeadsTo k q b d) (hs : b.state = .wBegin)
    (before : d.otherMaster s.params = e) :
    s.LeadsTo (k + 4) q ({ b with state := .wEnd }.endWrite 0#8)
      { e with
        mem := memWrite e.mem (selectByte s.params b.ch_r) b.enc_r
        ptr := selectByte s.params b.ch_r
        txn := none } :=
  (((h.wBegin hs before).wSel rfl rfl).wData rfl rfl).wEnd rfl rfl (isRegister_selectByte _ _)

/-- A whole read cycle: the channel's byte joins the receive buffer, and the oldest unread byte is the result (rules
R107, R154). -/
theorem State.LeadsTo.readCycle (h : s.LeadsTo k q b d) (hs : b.state = .rBegin)
    (before : d.otherMaster s.params = e) (room : e.rx.length < 255) :
    ∃ v m oldest unread, Fetches e.mem (selectByte s.params b.ch_r) v m ∧ e.rx ++ [v] = oldest :: unread ∧
      s.LeadsTo (k + 6) q
        ({ b with
            state := .rRead, status_r := 0#8, navail_r := BitVec.ofNat 8 (e.rx.length + 1),
            rd_r := oldest ^^^ e.corrupt }.readDone s.params (some (Codec.decode (oldest ^^^ e.corrupt))))
        { e with mem := m, ptr := selectByte s.params b.ch_r, rx := unread, txn := none } := by
  obtain ⟨v, m, fetches, requested⟩ :=
    (((h.rBegin hs before).rSel rfl rfl).rEnd rfl rfl).rReq rfl (isRegister_selectByte _ _)
  obtain ⟨oldest, unread, buffer⟩ : ∃ oldest unread, e.rx ++ [v] = oldest :: unread :=
    List.exists_cons_of_ne_nil (by simp)
  have counted := requested.rAvail rfl (by simp) (by simp; omega)
  have read := counted.rRead (x := oldest) (rest := unread) rfl (by simpa using buffer)
  exact ⟨v, m, oldest, unread, fetches, buffer, by simpa using read⟩

end Runs

/-! ### Whole requests beside the reference device -/

section Requests
variable {s : State} {k : Nat} {q : List ReqWord} {b : Block} {d e : RefDevice} {data ch : Byte}

/-- A read cycle over a register whose byte `v` is certain, with nothing else unread (rules R77, R154). -/
theorem State.LeadsTo.readCycle_certain {v : Byte} (h : s.LeadsTo k q b d) (hs : b.state = .rBegin)
    (before : d.otherMaster s.params = e) (clear : e.rx = [])
    (held : memRead e.mem (selectByte s.params b.ch_r) = some v) :
    s.LeadsTo (k + 6) q
      ({ b with
          state := .rRead, status_r := 0#8, navail_r := 1#8,
          rd_r := v ^^^ e.corrupt }.readDone s.params (some (Codec.decode (v ^^^ e.corrupt))))
      { e with ptr := selectByte s.params b.ch_r, rx := [], txn := none } := by
  obtain ⟨_, _, _, _, fetches, buffer, read⟩ := h.readCycle hs before (by simp [clear])
  obtain ⟨rfl, rfl⟩ := fetches.of_certain held
  rw [clear] at buffer read
  cases buffer
  exact read

/-- A WRV up to its read cycle. -/
theorem State.LeadsTo.wrvWrites (h : s.LeadsTo k (encode (.wrv data ch) :: q) b d) (idle : b.state = .idle)
    (valid : ch = 0x00#8 ∨ ch = 0x01#8) (before : d.otherMaster s.params = e) :
    s.LeadsTo (k + 5) q
      { b.latch 3#3 ch data with enc_r := Codec.encode data, status_r := 0#8, vfy_r := true, state := .rBegin }
      { e with
        mem := memWrite e.mem (selectByte s.params ch) (Codec.encode data)
        ptr := selectByte s.params ch
        txn := none } := by
  have accepted := h.accept idle
  rw [Block.acceptWord_wrv valid] at accepted
  have written := accepted.writeCycle rfl before
  rwa [Block.endWrite_wrv rfl] at written

/-- A whole WR. -/
theorem State.LeadsTo.wrWrites (h : s.LeadsTo k (encode (.wr data ch) :: q) b d) (idle : b.state = .idle)
    (valid : ch = 0x00#8 ∨ ch = 0x01#8) (before : d.otherMaster s.params = e) :
    s.LeadsTo (k + 5) q
      ({ b.latch 2#3 ch data with enc_r := Codec.encode data, status_r := 0#8 }.finish true 0#8 .ok)
      { e with
        mem := memWrite e.mem (selectByte s.params ch) (Codec.encode data)
        ptr := selectByte s.params ch
        txn := none } := by
  have accepted := h.accept idle
  rw [Block.acceptWord_wr valid] at accepted
  have written := accepted.writeCycle rfl before
  rwa [Block.endWrite_wr rfl] at written

/-- A whole RD. -/
theorem State.LeadsTo.rdReads (h : s.LeadsTo k (encode (.rd data ch) :: q) b d) (idle : b.state = .idle)
    (valid : ch = 0x00#8 ∨ ch = 0x01#8) (before : d.otherMaster s.params = e) (room : e.rx.length < 255) :
    ∃ v m oldest unread, Fetches e.mem (selectByte s.params ch) v m ∧ e.rx ++ [v] = oldest :: unread ∧
      s.LeadsTo (k + 7) q
        ({ b.latch 4#3 ch data with
            status_r := 0#8, navail_r := BitVec.ofNat 8 (e.rx.length + 1), rd_r := oldest ^^^ e.corrupt }.finish
          true (Codec.decode (oldest ^^^ e.corrupt)) .ok)
        { e with mem := m, ptr := selectByte s.params ch, rx := unread, txn := none } := by
  have accepted := h.accept idle
  rw [Block.acceptWord_rd valid] at accepted
  obtain ⟨v, m, oldest, unread, fetches, buffer, read⟩ := accepted.readCycle rfl before room
  rw [Block.readDone_plain rfl] at read
  exact ⟨v, m, oldest, unread, fetches, buffer, read⟩

/-- An RD of a register whose byte is certain, of a plain device with no other master and an empty buffer. -/
theorem State.LeadsTo.rdAnswers {v : Byte} (h : s.LeadsTo k (encode (.rd data ch) :: q) b d) (idle : b.state = .idle)
    (valid : ch = 0x00#8 ∨ ch = 0x01#8) (alone : d.otherWrites = []) (clear : d.rx = []) (plain : d.corrupt = 0#8)
    (held : memRead d.mem (selectByte s.params ch) = some v) :
    ∃ t, run (k + 7) s = .next t ∧ t.blk.state = .idle ∧ t.blk.done = true ∧
      t.blk.Responds true (Codec.decode v) 0#3 ∧ t.requests = q := by
  have accepted := h.accept idle
  rw [Block.acceptWord_rd valid] at accepted
  obtain ⟨t, ht, at_t⟩ := accepted.readCycle_certain rfl (RefDevice.otherMaster_none alone) clear held
  rw [Block.readDone_plain rfl, plain, BitVec.xor_zero] at at_t
  obtain ⟨idle, done, responds⟩ := at_t.finished
  exact ⟨t, ht, idle, done, responds, at_t.requests⟩

/-- The start of a run: a ready machine out of reset, with the reference device in place. -/
theorem State.Ready.leadsTo (ready : s.Ready) (rst : s.rst = []) (exclusive : s.transport.exclusive = true)
    (device : s.device = some d) : s.LeadsTo 0 s.requests s.blk d :=
  ⟨s, run_zero s, rfl, rfl, rfl, device, rst, exclusive, ready.2⟩

/-- The start of a run in which the word `w` is accepted first. -/
theorem State.Offers.leadsTo {w : ReqWord} (offers : s.Offers w) (exclusive : s.transport.exclusive = true)
    (device : s.device = some d) : s.LeadsTo 0 (w :: s.requests.tail) s.blk d := by
  rw [← List.eq_cons_of_mem_head? offers.presented]
  exact offers.ready.leadsTo offers.released exclusive device

end Requests

/-! ### The obligations of 20_memory.md -/

/-- Settles O56: the read cycle's fetch says what becomes of the registers. -/
theorem readReturnsRegister : Obligations.ReadReturnsRegister := by
  intro s d data ch valid offers exclusive device alone room
  obtain ⟨v, m, oldest, unread, fetches, buffer, t, ht, at_t⟩ :=
    (offers.leadsTo exclusive device).rdReads offers.ready.1 valid (RefDevice.otherMaster_none alone) room
  obtain ⟨idle, done, responds⟩ := at_t.finished
  exact ⟨t, _, v, oldest, unread, ht, idle, done, buffer, responds, at_t.device, rfl, fetches.held,
    fun _ => fetches.others, fun _ => fetches.of_certain, fetches.of_uncertain⟩

/-- Settles O57: the write leaves the encoded Command in the register, whatever the response of a WRV, and the RD finds
it there. -/
theorem writeThenRead : Obligations.WriteThenRead := by
  intro s d data y ch later valid ready rst exclusive device plain alone clear
  have start := ready.leadsTo rst exclusive device
  rw [← Codec.decode_encode]
  have quiet : d.otherMaster s.params = d := RefDevice.otherMaster_none alone
  refine ⟨fun requests => ?_, fun requests => ?_⟩ <;> rw [requests] at start
  · have written := start.wrWrites ready.1 valid quiet
    exact written.rdAnswers rfl valid alone clear plain (memRead_memWrite_same _ _ _)
  · have written := start.wrvWrites ready.1 valid quiet
    have verified := written.readCycle_certain rfl (RefDevice.otherMaster_none alone) clear
      (memRead_memWrite_same _ _ _)
    obtain ⟨_, _, ended⟩ := Block.readDone_finish _ _ _
    rw [ended] at verified
    exact verified.rdAnswers rfl valid alone rfl plain (memRead_memWrite_same _ _ _)

/-- Settles O58: the other master's byte stands in the register when the read cycle's T_REQUEST fetches it. -/
theorem verifySeesOtherMaster : Obligations.VerifySeesOtherMaster := by
  intro s d data ch x later valid offers exclusive device plain clear acts
  have written := (offers.leadsTo exclusive device).wrvWrites offers.ready.1 valid (RefDevice.otherMaster_some acts)
  obtain ⟨t, ht, at_t⟩ := written.readCycle_certain rfl (RefDevice.otherMaster_some rfl) clear
    (memRead_memWrite_same _ _ _)
  rw [plain, BitVec.xor_zero] at at_t
  exact ⟨t, ht, at_t.verified rfl⟩

/-- Settles O55: every step but W_END's answers a primitive that stores nothing of a register whose byte is certain. -/
theorem onlyWriteEndStores : Obligations.OnlyWriteEndStores := by
  intro s t d released notEnd device alone h
  cases step_next h with
  | reset _ _ rst _ => simp [State.rstAsserted, rst] at released
  | wait _ _ _ _ eq => subst eq; exact ⟨d, device, fun _ _ => id⟩
  | accept _ _ _ _ _ _ eq => subst eq; exact ⟨d, device, fun _ _ => id⟩
  | move prim res s' _ _ issue performed eq =>
    subst eq
    cases (performPrimitive_completes performed).2 with
    | scripted _ general _ _ _ => rw [State.tick_device, device] at general; cases general
    | drawn general _ _ _ _ => rw [State.tick_device, device] at general; cases general
    | reference e d' _ before after _ reply =>
      cases device.symm.trans before
      refine ⟨d', after, fun r v held => ?_⟩
      obtain same | ⟨_, fetches⟩ := RefDevice.answer_mem (Block.primitive_ne_tEnd notEnd issue) alone reply
      · rw [same, held]
      · exact fetches.keeps_certain held

/-- Settles O54: the device's answer to T_END(1), and what a read gives after a write. -/
theorem writeEndStores : Obligations.WriteEndStores := by
  intro s d released state exclusive device inStep
  have written : d.txn = some [selectByte s.params s.blk.ch_r, s.blk.enc_r] := by
    simpa only [RefDevice.InStep, state] using inStep
  exact ⟨_, _, step_reference released (by simp [state]) (by simp only [Block.primitive, state]) exclusive device
      (RefDevice.answer_endWrite written (isRegister_selectByte _ _)), rfl, rfl, memRead_memWrite_same _ _ _,
    fun r other => memRead_memWrite_other _ _ r _ other⟩

end Sys2Proof.Machine

namespace Sys2Proof

/-! ### The request word and its decoder (30_encoding.md rules R90, R91, R92, R95) -/

/-- Rule R90: the four fields are the whole word. -/
theorem toWord_ofWord (w : ReqWord) : (Request.ofWord w).toWord = w := by
  refine BitVec.eq_of_getLsbD_eq fun k lt => (Laws.getLsbD_toWord _ _ _ _ k).trans ?_
  split_ifs
  all_goals
    rw [Request.ofWord, BitVec.getLsbD_extractLsb', decide_eq_true (by omega), Bool.true_and]
    congr 1
    omega

theorem Instr.opcode_le (i : Instr) : i.opcode.toNat ≤ 4 := by
  cases i <;> simp [Instr.opcode]

/-- Rule R91: the row of an operation code is the instruction with that code and with the given fields. -/
theorem Instr.ofOp_eq_some_iff {op : BitVec 3} {data ch : Byte} {i : Instr} :
    Instr.ofOp op data ch = some i ↔ i.data = data ∧ i.ch = ch ∧ i.opcode = op := by
  constructor
  · intro row
    unfold Instr.ofOp at row
    split at row <;> cases row
    all_goals
      rename_i code
      exact ⟨rfl, rfl, BitVec.eq_of_toNat_eq code.symm⟩
  · rintro ⟨rfl, rfl, rfl⟩
    cases i <;> rfl

/-- Rule R91: the codes from 5 up have no row. -/
theorem Instr.ofOp_eq_none {op : BitVec 3} (reserved : 5 ≤ op.toNat) (data ch : Byte) :
    Instr.ofOp op data ch = none := by
  refine Option.eq_none_iff_forall_ne_some.2 fun i row => ?_
  obtain ⟨_, _, rfl⟩ := Instr.ofOp_eq_some_iff.1 row
  have defined := i.opcode_le
  omega

/-- Rule R95 on the fields: legal is exactly what an instruction is presented with. -/
theorem Request.decode_eq_legal_iff {r : Request} {i : Instr} : r.decode = .legal i ↔ i.request = r := by
  have row : r.decode = .legal i ↔ r.rsv = 0#5 ∧ Instr.ofOp r.op r.data r.ch = some i := by
    by_cases zero : r.rsv = 0#5
    · cases found : Instr.ofOp r.op r.data r.ch <;> simp [Request.decode, zero, found]
    · simp [Request.decode, zero]
  obtain ⟨data, ch, rsv, op⟩ := r
  rw [row, Instr.ofOp_eq_some_iff, Instr.request, Request.mk.injEq]
  tauto

/-- Rules R90, R91, R95: a word decodes to an instruction exactly if it is the instruction's word. -/
theorem decode_eq_legal_iff {w : ReqWord} {i : Instr} : decode w = .legal i ↔ encode i = w := by
  rw [decode, Request.decode_eq_legal_iff, encode]
  constructor
  · intro fields; rw [fields, toWord_ofWord]
  · rintro rfl; rw [Laws.ofWord_toWord]

/-- Rule R92: a reserved field that is not zero makes a word illegal, whatever its operation code. -/
theorem decode_reservedField {w : ReqWord} (nonzero : w.extractLsb' 3 5 ≠ 0#5) :
    decode w = .illegal .reservedField :=
  if_neg nonzero

/-- Rule R91: a word with no row for its operation code is illegal. -/
theorem decode_reservedOp {w : ReqWord} (zero : w.extractLsb' 3 5 = 0#5) (reserved : 5 ≤ (w.extractLsb' 0 3).toNat) :
    decode w = .illegal .reservedOp := by
  simp only [decode, Request.decode, Request.ofWord, if_pos zero, Instr.ofOp_eq_none reserved]

/-- Rules R91, R95: the word of a row, by its three fields. -/
theorem decode_legal {w : ReqWord} {i : Instr} (zero : w.extractLsb' 3 5 = 0#5) (op : w.extractLsb' 0 3 = i.opcode)
    (data : i.data = w.extractLsb' 16 8) (ch : i.ch = w.extractLsb' 8 8) : decode w = .legal i := by
  rw [decode, Request.decode_eq_legal_iff, Instr.request, Request.ofWord, zero, op, data, ch]

/-- The request word of an instruction, bit field by bit field (rule R90). -/
theorem encode_eq (i : Instr) : encode i = i.data ++ i.ch ++ 0b00000#5 ++ i.opcode := rfl

end Sys2Proof

namespace Sys2Proof.Machine

/-! ### The request port (30_encoding.md rules R95 and R97, 41_transport.md rule R162) -/

theorem State.presented_cons {s : State} {w : ReqWord} {rest : List ReqWord} {i : Instr}
    (requests : s.requests = w :: rest) (legal : decode w = .legal i) : s.presented = .legal i := by
  simp only [State.presented, requests, legal]

theorem stepReleased_legal {s : State} {i : Instr} (presented : s.presented = .legal i) :
    stepReleased s = exec i s := by
  simp only [stepReleased, presented]

theorem requestStep_busy {s : State} (act : Block → Block) (busy : s.blk.state ≠ .idle) :
    requestStep act s = sequencer s :=
  if_neg busy

/-- In a state other than IDLE every request waits, and the operation in progress takes its step (log entry 16). -/
theorem exec_busy {s : State} (i : Instr) (busy : s.blk.state ≠ .idle) : exec i s = sequencer s := by
  cases i <;> exact requestStep_busy _ busy

theorem State.reqReady_idle {s : State} (released : s.rstAsserted = false) (idle : s.blk.state = .idle) :
    s.reqReady = true := by
  simp [State.reqReady, released, idle]

theorem State.reqReady_asserted {s : State} (asserted : s.rstAsserted = true) : s.reqReady = false := by
  simp [State.reqReady, asserted]

theorem State.carryOut_requests (s : State) : s.carryOut.requests = s.requests := by
  rcases s.carryOut_cases with same | ⟨_, _, completes⟩
  · rw [same]
  · exact (performPrimitive_completes completes).1.requests

theorem State.abandon_requests (s : State) (carriedOut : Bool) : (s.abandon carriedOut).requests = s.requests := by
  unfold State.abandon
  split
  · rfl
  · cases carriedOut with
    | false => rfl
    | true => exact s.carryOut_requests

/-- A reset takes no request off the request port (rule R230). -/
@[simp] theorem resetEvent_requests (carriedOut : Bool) (s : State) :
    (resetEvent carriedOut s).requests = s.requests :=
  s.abandon_requests carriedOut

/-! ### The bus symbols of the two cycles (30_encoding.md rules R105 to R108, 41_transport.md rule R170) -/

section Received
variable {count b : Byte} {taken taken' : Option Byte} {later : List Issue}

/-- A byte that the T_REQUEST was seen to take, whatever came later (log entry 30). -/
theorem receivedSymbol_taken (b : Byte) (later : List Issue) : receivedSymbol (some b) later = some (.transfer b) := by
  simp only [receivedSymbol]

/-- The byte that the T_READ of the cycle returned (rules R107, R167). -/
theorem receivedSymbol_read (available : count ≠ 0#8) :
    receivedSymbol none (⟨.tAvailable, count, taken⟩ :: ⟨.tRead, b, taken'⟩ :: later) = some (.transfer b) :=
  if_neg available

theorem receivedSymbol_unread (available : count ≠ 0#8) (unread : later.head?.map Issue.prim ≠ some .tRead) :
    receivedSymbol none (⟨.tAvailable, count, taken⟩ :: later) = some .unseen := by
  unfold receivedSymbol
  split <;> simp_all

theorem receivedSymbol_noByte : receivedSymbol none (⟨.tAvailable, 0#8, taken⟩ :: later) = none := by
  unfold receivedSymbol
  split <;> simp_all

theorem receivedSymbol_uncounted (uncounted : later.head?.map Issue.prim ≠ some .tAvailable) :
    receivedSymbol none later = some .unseen := by
  unfold receivedSymbol
  split <;> simp_all

end Received

section Frames
variable {a7 : Addr7} {r d a b c status q : Byte} {ta tb tc te taken : Option Byte} {later : List Issue}

theorem busFrames_write :
    busFrames (⟨.tBegin a7, a, ta⟩ :: ⟨.tWrite r, b, tb⟩ :: ⟨.tWrite d, c, tc⟩ :: ⟨.tEnd true, status, te⟩ :: later) =
      writeFrame a7 r d status ++ busFrames later := by
  rw [busFrames]

/-- The first four primitives of a read cycle, with what its T_REQUEST received, and what later primitives add to the
frame (rule R107). -/
theorem busFrames_read {rest : List Issue} {data : Option BusSymbol} (received : receivedSymbol taken rest = data)
    (after : busFrames rest = busFrames later) :
    busFrames (⟨.tBegin a7, a, ta⟩ :: ⟨.tWrite r, b, tb⟩ :: ⟨.tEnd false, status, te⟩ ::
        ⟨.tRequest a7 Config.readCount true, q, taken⟩ :: rest) =
      pointerFrame a7 r status ++ requestFrame a7 data ++ busFrames later := by
  rw [busFrames, if_pos rfl, received, after]

theorem busFrames_tAvailable : busFrames (⟨.tAvailable, q, taken⟩ :: later) = busFrames later := by
  rw [busFrames]

theorem busFrames_tRead : busFrames (⟨.tRead, q, taken⟩ :: later) = busFrames later := by
  rw [busFrames]

end Frames

/-! ### The obligations of 30_encoding.md -/

/-- Settles O10: the fields of an instruction's word are its own, and the table's row for them is the instruction. -/
theorem decodeOfEncode : Obligations.DecodeOfEncode :=
  decode_encode

/-- Settles O11: the fields of a legal word are what the instruction is presented with, and they are the whole word. -/
theorem encodeOfDecode : Obligations.EncodeOfDecode :=
  fun _ _ => decode_eq_legal_iff.1

/-- Settles O23: only an acceptance takes a word, and the block is ready exactly there and in the wait, which has none. -/
theorem requestTakenOnlyWhenReady : Obligations.RequestTakenOnlyWhenReady := by
  intro s t h
  cases step_next h with
  | reset _ _ rst eq =>
    have notReady : s.reqReady = false := State.reqReady_asserted (rstAsserted_iff.2 ⟨_, _, rst⟩)
    subst eq
    simp [notReady]
  | wait released idle _ requests eq =>
    subst eq
    simp [State.reqReady_idle released idle, requests]
  | accept _ _ released idle _ _ eq =>
    subst eq
    simp [State.reqReady_idle released idle]
  | move _ _ _ _ busy _ performed eq =>
    have kept := (performPrimitive_completes performed).1.requests
    subst eq
    simp [State.reqReady_busy busy, kept]

/-- Settles O24: whatever is presented, the step is the sequencer's, which looks at no request and latches none. -/
theorem busyRequestWaits : Obligations.BusyRequestWaits := by
  intro s busy
  refine ⟨State.reqReady_busy busy, fun i j => (exec_busy i busy).trans (exec_busy j busy).symm, fun i t h => ?_⟩
  rw [exec_busy i busy] at h
  obtain ⟨_, res, _, _, performed, rfl⟩ := sequencer_next busy h
  obtain ⟨op, ch, data, _⟩ := s.blk.transition_latched s.params res busy
  exact ⟨(performPrimitive_completes performed).1.requests, op, ch, data⟩

/-- Settles O12, by the reserved field and then by the operation code. -/
theorem decodeRequestTable : Obligations.DecodeRequestTable := by
  intro w
  refine ⟨decode_reservedField, fun zero => ⟨?_, ?_, ?_, ?_, ?_, decode_reservedOp zero⟩⟩
  all_goals exact fun op => decode_legal zero op rfl rfl

/-- Settles O13: the legal words are those of their instructions. -/
theorem decodeSampleWords : Obligations.DecodeSampleWords :=
  ⟨decode_eq_legal_iff.2 rfl, decode_eq_legal_iff.2 rfl, decode_eq_legal_iff.2 rfl, decode_eq_legal_iff.2 rfl,
    decode_eq_legal_iff.2 rfl, decode_reservedField (by decide), decode_reservedOp (by decide) (by decide)⟩

/-- Settles O14: a line's word is that of the instruction it stands for, and a pseudo-instruction stands for the same
instruction as its expansion. -/
theorem assembledWords : Obligations.AssembledWords := by
  intro ch v w
  exact ⟨encode_eq (.enc v 0), encode_eq (.dec v 0), encode_eq (.wr v ch), encode_eq (.wrv v ch), encode_eq (.rd 0 ch),
    rfl, rfl, rfl, rfl, rfl, rfl⟩

/-- Settles O15: the presented word is the instruction's, and the sample of `rst` is no reset. -/
theorem stepRunsDecodedRequest : Obligations.StepRunsDecodedRequest := by
  intro s w rest i released requests legal
  rw [step_released released]
  exact stepReleased_legal (State.presented_cons (s := s.tick) requests legal)

/-- Settles O42, by `done`. -/
theorem responseOnlyWhenDone : Obligations.ResponseOnlyWhenDone := by
  intro s
  refine ⟨fun pending => ?_, fun done => ?_⟩
  · simp only [State.readResponse, pending]
  · simp only [State.readResponse, done, Block.response]

/-- Settles O43: with a response the block is IDLE, and with nothing presented IDLE waits. -/
theorem responseHoldsUntilAcceptance : Obligations.ResponseHoldsUntilAcceptance := by
  intro s t inv done none released h
  cases step_next h with
  | reset _ _ rst _ => simp [State.rstAsserted, rst] at released
  | wait _ _ _ _ eq => subst eq; rfl
  | accept _ _ _ _ _ requests _ => simp [none] at requests
  | move _ _ _ _ busy _ _ _ => simp [inv.block.busy busy] at done

/-- Settles O53: each read frame by what its T_REQUEST received; the primitives after it show nothing of their own. -/
theorem cyclesAppearAsFrames : Obligations.CyclesAppearAsFrames := by
  intro p ch d d' v a b c status a' b' status' q count later pointer request write read
  refine ⟨busFrames_write, fun available => ⟨?_, ?_, fun unread => ?_⟩, fun uncounted => ?_, ?_, ?_⟩
  · exact busFrames_read (receivedSymbol_read available) (busFrames_tAvailable.trans busFrames_tRead)
  · refine busFrames_write.trans (congrArg (writeFrame _ _ _ _ ++ ·) ?_)
    exact busFrames_read (receivedSymbol_read available) (busFrames_tAvailable.trans busFrames_tRead)
  · exact busFrames_read (receivedSymbol_unread available unread) busFrames_tAvailable
  · exact busFrames_read (receivedSymbol_uncounted uncounted) rfl
  · exact busFrames_read (receivedSymbol_taken v later) rfl
  · exact busFrames_read receivedSymbol_noByte busFrames_tAvailable

end Sys2Proof.Machine

namespace Sys2Proof.Machine

/-! ### The codec on the logical range and at -128 (40_codec.md rules R120 to R123) -/

/-- The signed value of a byte from its unsigned one (rule R14). -/
theorem sint8_eq_toNat (v : Byte) : sint8 v = if v.toNat ≤ 127 then (v.toNat : Int) else v.toNat - 256 := by
  rw [sint8, BitVec.toInt_eq_toNat_cond]
  split <;> split <;> omega

/-- Saturation leaves the logical range alone (rule R121). -/
theorem Codec.saturated_of_logical {c : Byte} (lo : -127 ≤ sint8 c) : Codec.saturated c = sint8 c :=
  if_neg (by omega)

theorem Codec.sat_of_logical {c : Byte} (lo : -127 ≤ sint8 c) : Codec.sat c = c :=
  if_neg fun minus128 => absurd (minus128 ▸ lo) (by decide)

/-- Saturation does not change the sign (rule R121). -/
theorem Codec.saturated_nonneg_iff {c : Byte} : 0 ≤ Codec.saturated c ↔ 0 ≤ sint8 c := by
  unfold Codec.saturated
  split <;> omega

/-- `encode` saturates first, so it does not tell a Command from its saturated one (rules R120, R121). -/
theorem Codec.encode_sat (c : Byte) : Codec.encode (Codec.sat c) = Codec.encode c := by
  have logical : -127 ≤ sint8 (Codec.sat c) := by
    rw [Codec.sint8_sat]
    exact (Codec.saturated_range c).1
  have same : Codec.saturated (Codec.sat c) = Codec.saturated c :=
    (Codec.saturated_of_logical logical).trans (Codec.sint8_sat c)
  rw [Codec.encode, Codec.encode, same]

/-- A non-negative Command gets the sign bit (rules R122, R123). -/
theorem Codec.toNat_encode_nonneg {v : Byte} (nonneg : v.toNat ≤ 0x7F) : (Codec.encode v).toNat = 128 + v.toNat := by
  have value : sint8 v = v.toNat := (sint8_eq_toNat v).trans (if_pos nonneg)
  rw [Codec.toNat_encode, Codec.saturated_of_logical (by omega), value, Codec.signBit, if_pos (by omega)]
  omega

/-- A negative Command of the logical range becomes its absolute value (rules R122, R123). -/
theorem Codec.toNat_encode_neg {v : Byte} (neg : 0x81 ≤ v.toNat) : (Codec.encode v).toNat = 256 - v.toNat := by
  have value : sint8 v = v.toNat - 256 := (sint8_eq_toNat v).trans (if_neg (by omega))
  rw [Codec.toNat_encode, Codec.saturated_of_logical (by omega), value, Codec.signBit, if_neg (by omega)]
  omega

theorem Codec.encode_minus127 : Codec.encode 0x81#8 = 0x7F#8 :=
  BitVec.eq_of_toNat_eq (Codec.toNat_encode_neg (by decide))

/-- Rule R133: -128 encodes as -127 does. -/
theorem Codec.encode_minus128 : Codec.encode 0x80#8 = Codec.encode 0x81#8 :=
  (Codec.encode_sat 0x80#8).symm

/-! ### The fields of a RegisterByte under masks (30_encoding.md rule R100) -/

theorem Codec.and_signMask (b : Byte) : b &&& 0x80#8 = if Codec.signOf b then 0x80#8 else 0#8 :=
  BitVec.and_twoPow b 7

theorem Codec.toNat_and_magnitudeMask (b : Byte) : (b &&& 0x7F#8).toNat = Codec.magnitudeOf b := by
  rw [BitVec.toNat_and, Codec.magnitudeOf, BitVec.extractLsb'_toNat, Nat.shiftRight_zero]
  exact Nat.and_two_pow_sub_one_eq_mod _ 7

theorem or_signMask {v : Byte} (clear : v.toNat ≤ 0x7F) : (0x80#8 ||| v).toNat = 128 + v.toNat := by
  rw [BitVec.toNat_or]
  exact (Nat.two_pow_add_eq_or_of_lt (i := 7) (by omega) 1).symm

/-- A number masked to 8 bits as a byte (rule R141's `& 0xFF`). -/
theorem toNat_ofNat_and_byteMask (n : Nat) : (BitVec.ofNat 8 (n &&& 0xFF)).toNat = n % 256 := by
  have mask : n &&& 0xFF = n % 256 := Nat.and_two_pow_sub_one_eq_mod n 8
  rw [mask, BitVec.toNat_ofNat]
  exact Nat.mod_mod n 256

/-- The negation of an integer in a byte, written with unsigned numbers (rules R14, R126). -/
theorem byte8_neg {n : Nat} (le : n ≤ 0x100) : byte8 (-(n : Int)) = BitVec.ofNat 8 ((0x100 - n) &&& 0xFF) := by
  apply BitVec.eq_of_toNat_eq
  rw [toNat_ofNat_and_byteMask, byte8, BitVec.toNat_ofInt]
  omega

/-- Rule R124: with the sign bit, the magnitude itself. -/
theorem Codec.decode_of_sign {b : Byte} (sign : Codec.signOf b = true) : Codec.decode b = b &&& 0x7F#8 := by
  have magnitude : Codec.decode b = byte8 (Codec.magnitudeOf b) := by simp only [Codec.decode, sign]
  rw [magnitude, ← Codec.toNat_and_magnitudeMask, byte8, BitVec.ofInt_natCast, BitVec.ofNat_toNat, BitVec.setWidth_eq]

/-- Rules R124 and R126: without the sign bit, the negated magnitude. -/
theorem Codec.decode_of_noSign {b : Byte} (sign : Codec.signOf b = false) :
    Codec.decode b = BitVec.ofNat 8 ((0x100 - (b &&& 0x7F#8).toNat) &&& 0xFF) := by
  have magnitude : Codec.decode b = byte8 (-(Codec.magnitudeOf b : Int)) := by simp only [Codec.decode, sign]
  have le := Codec.magnitudeOf_le b
  rw [magnitude, Codec.toNat_and_magnitudeMask, byte8_neg (by omega)]

/-! ### Acceptance in a ready state (41_transport.md rule R150) -/

/-- In a ready state the presented request is accepted, and the block makes the writes of its acceptance. -/
theorem requestStep_ready {s : State} (act : Block → Block) (ready : s.Ready) :
    requestStep act s = .next (s.accept act) := by
  obtain ⟨idle, noStray⟩ := ready
  simp only [requestStep, idle, if_true, idleStep, noStray]

/-! ### The obligations of 40_codec.md -/

/-- Settles O1, by the range of `v` for `encode` and by its sign bit for `decode`. -/
theorem codecClosedForms : Obligations.CodecClosedForms := by
  intro v
  refine ⟨fun nonneg => ?_, fun neg => ?_, fun minus128 => ?_, Codec.decode_of_sign, Codec.decode_of_noSign⟩
  · exact BitVec.eq_of_toNat_eq ((Codec.toNat_encode_nonneg nonneg).trans (or_signMask nonneg).symm)
  · apply BitVec.eq_of_toNat_eq
    rw [Codec.toNat_encode_neg neg, toNat_ofNat_and_byteMask]
    omega
  · rw [minus128, Codec.encode_minus128, Codec.encode_minus127]

/-- Settles O2: a Command comes back saturated, and the logical range is what saturation leaves alone. -/
theorem roundTrip : Obligations.RoundTrip :=
  fun c lo _ => (Codec.decode_encode c).trans (Codec.sat_of_logical lo)

/-- Settles O4: the two Commands saturate to the same one. -/
theorem saturationLaw : Obligations.SaturationLaw :=
  ⟨Codec.encode_minus128, Codec.encode_minus127⟩

/-- Settles O7: a decoded value is a magnitude of at most 127 or its negation. -/
theorem decodeNeverSentinel : Obligations.DecodeNeverSentinel := by
  intro b
  obtain ⟨lo, hi⟩ := Codec.sint8_decode_range b
  exact ⟨lo, hi, Codec.decode_ne_minus128 b⟩

/-- Settles O8: the sign bit of the encoded byte is the sign of the saturated value, which is the Command's. -/
theorem signBitMapping : Obligations.SignBitMapping := by
  intro c
  have sign : Codec.signOf (Codec.encode c) = decide (0 ≤ sint8 c) :=
    (Codec.fields_encode c).1.trans (decide_eq_decide.2 Codec.saturated_nonneg_iff)
  rw [Codec.and_signMask, sign]
  refine ⟨fun nonneg => ?_, fun neg => ?_⟩
  · rw [decide_eq_true nonneg, if_pos rfl]
    decide
  · rw [decide_eq_false (by omega), if_neg Bool.false_ne_true]

/-- Settles O16: the acceptance latches the request and finishes with the encoded data. -/
theorem encCompletes : Obligations.EncCompletes :=
  fun _ data ch ready => requestStep_ready (fun b => b.acceptEnc data ch) ready

/-- Settles O17: the acceptance latches the request and finishes with the decoded data. -/
theorem decCompletes : Obligations.DecCompletes :=
  fun _ data ch ready => requestStep_ready (fun b => b.acceptDec data ch) ready

end Sys2Proof.Machine

namespace Sys2Proof.Machine

open Sys2Proof.Config (Params)

/-! ### The step in IDLE and outside it, stops included (41_transport.md rule R160, 60_exceptions.md rule R219) -/

theorem idleStep_quiet {s : State} (act : State → State) (quiet : s.transport.strayDone = false) :
    idleStep act s = .next (act s) := by
  simp only [idleStep, quiet]

theorem idleStep_stray {s : State} (act : State → State) (stray : s.transport.strayDone = true) :
    idleStep act s = .refused .completionWithoutPrimitive := by
  simp only [idleStep, stray]

theorem idleStep_refused {act : State → State} {s : State} {why : Refusal} (h : idleStep act s = .refused why) :
    why = .completionWithoutPrimitive ∧ s.transport.strayDone = true := by
  cases stray : s.transport.strayDone with
  | false => rw [idleStep_quiet act stray] at h; cases h
  | true => rw [idleStep_stray act stray] at h; cases h; exact ⟨rfl, rfl⟩

/-- A step in IDLE waits or accepts; either way it is an `idleStep`. -/
theorem step_idle {s : State} (released : s.rstAsserted = false) (idle : s.blk.state = .idle) :
    ∃ act, step s = idleStep act s.tick := by
  cases requests : s.requests with
  | nil => exact ⟨_, step_waiting released idle requests⟩
  | cons _ _ => exact ⟨_, step_accepting released idle requests⟩

/-- Rule R32: every state but IDLE issues a primitive. -/
theorem Block.exists_primitive {b : Block} (p : Params) (busy : b.state ≠ .idle) :
    ∃ prim, b.primitive p = some prim :=
  Option.ne_none_iff_exists'.1 (mt Block.primitive_eq_none.1 busy)

theorem Block.busy_of_primitive {p : Params} {b : Block} {prim : Primitive} (issue : b.primitive p = some prim) :
    b.state ≠ .idle := fun idle => by
  rw [Block.primitive_eq_none.2 idle] at issue
  cases issue

theorem sequencer_never {s : State} {prim : Primitive} (issue : s.blk.primitive s.params = some prim)
    (never : performPrimitive prim s = .never) : sequencer s = .fault .stuckOnTransport := by
  simp only [sequencer, issue, never]

theorem sequencer_refuses {s : State} {prim : Primitive} {why : Refusal}
    (issue : s.blk.primitive s.params = some prim) (refused : performPrimitive prim s = .refused why) :
    sequencer s = .refused why := by
  simp only [sequencer, issue, refused]

theorem sequencer_refused {s : State} {why : Refusal} (h : sequencer s = .refused why) :
    ∃ prim, s.blk.primitive s.params = some prim ∧ performPrimitive prim s = .refused why := by
  cases issue : s.blk.primitive s.params with
  | none => simp only [sequencer, issue] at h; cases h
  | some prim =>
    refine ⟨prim, rfl, ?_⟩
    cases performed : performPrimitive prim s with
    | completes _ _ => rw [sequencer_completes issue performed] at h; cases h
    | never => rw [sequencer_never issue performed] at h; cases h
    | refused _ => rw [sequencer_refuses issue performed] at h; cases h; rfl

theorem performPrimitive_shared {prim : Primitive} {s : State} (shared : s.transport.exclusive = false) :
    performPrimitive prim s = .refused .exclusiveUseBroken := by
  simp only [performPrimitive, shared]

theorem performPrimitive_stuck {prim : Primitive} {s : State} {later : List Answer}
    (exclusive : s.transport.exclusive = true) (general : s.device = none)
    (answers : s.transport.answers = .never :: later) : performPrimitive prim s = .never := by
  simp only [performPrimitive, exclusive, general, generalReply, answers]

/-- The step whose primitive the transport completes makes the writes of its state. -/
theorem step_issues {s s' : State} {prim : Primitive} {res : Byte} {b : Block} (released : s.rstAsserted = false)
    (issue : s.blk.primitive s.params = some prim) (performed : performPrimitive prim s.tick = .completes res s')
    (writes : s.blk.transition s.params res = b) : step s = .next { s' with blk := b } :=
  writes ▸ step_move released (Block.busy_of_primitive issue) issue performed

/-! ### The writes of an acceptance, by the channel (41_transport.md rules R150 to R152) -/

theorem validChannel_eq_false {ch : Byte} (not0 : ch ≠ 0x00#8) (not1 : ch ≠ 0x01#8) : validChannel ch = false := by
  simp [validChannel, not0, not1]

section Accepts
variable {ch : Byte} (data : Byte) (op : BitVec 3) (b : Block)

theorem Block.acceptWrite_valid (valid : validChannel ch = true) :
    b.acceptWrite op data ch = { b.latch op ch data with enc_r := Codec.encode data, state := .wBegin } := by
  simp only [Block.acceptWrite, valid]

theorem Block.acceptWrite_invalid (invalid : validChannel ch = false) :
    b.acceptWrite op data ch = (b.latch op ch data).finish false 0x00#8 .invalidChannel := by
  simp only [Block.acceptWrite, invalid]

theorem Block.acceptRead_valid (valid : validChannel ch = true) :
    b.acceptRead data ch = { b.latch 4#3 ch data with state := .rBegin } := by
  simp only [Block.acceptRead, valid]

theorem Block.acceptRead_invalid (invalid : validChannel ch = false) :
    b.acceptRead data ch = (b.latch 4#3 ch data).finish false errorSentinel .invalidChannel := by
  simp only [Block.acceptRead, invalid]

end Accepts

/-- The acceptance step of a ready block, with its writes worked out. -/
theorem requestStep_accepts {s : State} {b : Block} {act : Block → Block} (ready : s.Ready) (writes : act s.blk = b) :
    requestStep act s = .next { s with blk := b, requests := s.requests.tail } :=
  writes ▸ requestStep_ready act ready

/-! ### The writes of the two cycles' steps (41_transport.md rules R153, R154, R161) -/

section Writes
variable {p : Params} {b : Block} {res : Byte}

theorem Block.transition_passes {nxt : FsmState} (row : b.state.Passes nxt) :
    b.transition p res = { b with state := nxt } := by
  generalize hs : b.state = st at row
  cases row <;> simp only [Block.transition, hs]

theorem Block.transition_rEnd (hs : b.state = .rEnd) :
    b.transition p res = { b with status_r := res, state := .rReq } := by
  simp only [Block.transition, hs]

theorem Block.transition_wEnd (hs : b.state = .wEnd) : b.transition p res = b.endWrite res := by
  simp only [Block.transition, hs]

theorem Block.transition_rAvail (hs : b.state = .rAvail) : b.transition p res = b.checkAvailable p res := by
  simp only [Block.transition, hs]

/-- The W_END writes of a write that the device did not accept. -/
theorem Block.endWrite_failed (failed : res ≠ 0#8) :
    b.endWrite res = { b with status_r := res }.finish false 0#8 .busTransactionFailure :=
  if_pos failed

/-- The W_END writes with status 0 where the operation is no WR: the read cycle follows. -/
theorem Block.endWrite_turns (notWr : b.op_r ≠ 2#3) :
    b.endWrite 0#8 = { b with status_r := 0#8, vfy_r := true, state := .rBegin } := by
  simp only [Block.endWrite, ne_eq, not_true_eq_false, if_false, notWr]

/-- The end of a read cycle without a byte, of an RD and of a verify alike (rules R157, R159). -/
theorem Block.readDone_none : b.readDone p none = b.finish false errorSentinel .readUnavailable := by
  cases vfy : b.vfy_r <;> simp only [Block.readDone, vfy, Block.plainReadDone, Block.verifyDone]

/-- Rule R167: a count of 0 ends the read cycle without a byte. -/
theorem Block.checkAvailable_zero :
    b.checkAvailable p 0#8 = { b with navail_r := 0#8 }.finish false errorSentinel .readUnavailable :=
  (if_pos rfl).trans Block.readDone_none

theorem Block.checkAvailable_some (available : res ≠ 0#8) :
    b.checkAvailable p res = { b with navail_r := res, state := .rRead } :=
  if_neg available

end Writes

/-! ### The duties and the prepared answers across a step (41_transport.md rules R175, R178) -/

/-- From `s` to `t` the duties stay as they were, and some of the coming answers are used up. -/
structure State.KeepsDuties (s t : State) : Prop where
  exclusive : t.transport.exclusive = s.transport.exclusive
  strayDone : t.transport.strayDone = s.transport.strayDone
  answers : t.transport.answers <:+ s.transport.answers

theorem State.KeepsDuties.of_eq {s t : State} (transport : t.transport = s.transport) : s.KeepsDuties t :=
  ⟨by rw [transport], by rw [transport], by rw [transport]⟩

theorem State.KeepsDuties.trans {s t u : State} (st : s.KeepsDuties t) (tu : t.KeepsDuties u) : s.KeepsDuties u :=
  ⟨tu.exclusive.trans st.exclusive, tu.strayDone.trans st.strayDone, tu.answers.trans st.answers⟩

theorem performPrimitive_keepsDuties {prim : Primitive} {s s' : State} {res : Byte}
    (h : performPrimitive prim s = .completes res s') : s.KeepsDuties s' := by
  obtain ⟨completed, completedBy⟩ := performPrimitive_completes h
  refine ⟨completed.exclusive'.trans completed.exclusive.symm, completed.strayDone, ?_⟩
  cases completedBy with
  | scripted rest _ _ before after => rw [before, after]; exact List.suffix_cons _ rest
  | drawn _ _ before after _ => rw [before, after]
  | reference _ _ _ _ _ same _ => rw [same]

theorem State.carryOut_keepsDuties (s : State) : s.KeepsDuties s.carryOut := by
  rcases s.carryOut_cases with same | ⟨_, _, completes⟩
  · exact .of_eq (by rw [same])
  · exact performPrimitive_keepsDuties completes

theorem State.abandon_keepsDuties (s : State) (carriedOut : Bool) : s.KeepsDuties (s.abandon carriedOut) := by
  unfold State.abandon
  split
  · exact .of_eq rfl
  · cases carriedOut with
    | false => exact .of_eq rfl
    | true => exact s.carryOut_keepsDuties.trans (.of_eq rfl)

/-- No step, a reset included, touches the duties or adds an answer. -/
theorem step_keepsDuties {s t : State} (h : step s = .next t) : s.KeepsDuties t := by
  have ticked : s.KeepsDuties s.tick := .of_eq rfl
  cases step_next h with
  | reset c _ _ eq =>
    subst eq
    exact (ticked.trans (s.tick.abandon_keepsDuties c)).trans (.of_eq rfl)
  | wait _ _ _ _ eq => subst eq; exact .of_eq rfl
  | accept _ _ _ _ _ _ eq => subst eq; exact .of_eq rfl
  | move _ _ _ _ _ _ performed eq =>
    subst eq
    exact (ticked.trans (performPrimitive_keepsDuties performed)).trans (.of_eq rfl)

/-! ### The reference device in step with the block (20_memory.md rule R80) -/

section InStep
variable {p : Params} {b : Block} {d : RefDevice}

theorem RefDevice.inStep_finish (ok : Bool) (val : Byte) (err : ErrorCode) : d.InStep p (b.finish ok val err) :=
  trivial

/-- After a write cycle the block asks nothing of the device: it is IDLE, or begins a transaction. -/
theorem RefDevice.inStep_endWrite (status : Byte) : d.InStep p (b.endWrite status) := by
  unfold Block.endWrite
  split
  · exact inStep_finish ..
  · split
    · exact inStep_finish ..
    · exact trivial

theorem RefDevice.inStep_checkAvailable (unread : d.rx ≠ []) (count : Byte) :
    d.InStep p (b.checkAvailable p count) := by
  by_cases zero : count = 0#8
  · rw [zero, Block.checkAvailable_zero]
    exact inStep_finish ..
  · rw [Block.checkAvailable_some zero]
    exact unread

theorem RefDevice.inStep_readDone (x : Byte) : d.InStep p (b.readDone p (some x)) := by
  obtain ⟨_, _, ended⟩ := b.readDone_finish p x
  rw [ended]
  exact inStep_finish ..

/-- After any acceptance the block is IDLE or begins a transaction. -/
theorem Acceptance.inStep {act : Block → Block} (h : Acceptance act) : d.InStep p (act b) := by
  cases h with
  | ends _ _ _ _ _ _ _ eq => rw [eq]; exact RefDevice.inStep_finish ..
  | beginsWrite _ _ _ _ _ eq | beginsRead _ _ _ eq => rw [eq]; exact trivial

/-- A device in step with a busy block gives the block's primitive a meaning, and stays in step with it. -/
theorem RefDevice.InStep.answers (inStep : d.InStep p b) (busy : b.state ≠ .idle) (n : Nat) :
    ∃ prim res d' drew, b.primitive p = some prim ∧ d.answer p n prim = .answers res d' drew ∧
      d'.InStep p (b.transition p res) := by
  unfold Block.primitive Block.transition
  unfold RefDevice.InStep at inStep
  cases hs : b.state <;> simp only [hs] at inStep ⊢
  case idle => exact absurd hs busy
  case wBegin | rBegin => exact ⟨_, _, _, _, rfl, answer_tBegin, rfl⟩
  case wSel | rSel => exact ⟨_, _, _, _, rfl, answer_tWrite inStep _, rfl⟩
  case wData => exact ⟨_, _, _, _, rfl, answer_tWrite inStep _, rfl⟩
  case wEnd =>
    exact ⟨_, _, _, _, rfl, answer_endWrite inStep (isRegister_selectByte _ _), inStep_endWrite _⟩
  case rEnd => exact ⟨_, _, _, _, rfl, answer_endPointer inStep, rfl⟩
  case rReq =>
    obtain ⟨v, _, _, answer⟩ := answer_request p n (d := d) (inStep ▸ isRegister_selectByte _ _)
    have unread : d.rx ++ [v] ≠ [] := by simp
    exact ⟨_, _, _, _, rfl, answer, unread⟩
  case rAvail =>
    by_cases room : d.rx.length < 256
    · exact ⟨_, _, _, _, rfl, answer_available room, inStep_checkAvailable inStep _⟩
    · exact ⟨_, _, _, _, rfl, answer_available_free room, inStep_checkAvailable inStep _⟩
  case rRead =>
    obtain ⟨_, _, unread⟩ := List.exists_cons_of_ne_nil inStep
    exact ⟨_, _, _, _, rfl, answer_tRead unread, inStep_readDone _⟩

end InStep

/-- Every step keeps a reference device in step with the block. -/
theorem step_keepsInStep {s t : State} (inStep : s.InStep) (h : step s = .next t) : t.InStep := by
  cases step_next h with
  | reset _ _ _ eq => subst eq; exact fun _ _ => trivial
  | wait _ _ _ _ eq => subst eq; exact inStep
  | accept w _ _ _ _ _ eq => subst eq; exact fun _ _ => (Block.acceptWord_acceptance w).inStep
  | move prim res s' _ busy issue performed eq =>
    subst eq
    intro d' device'
    obtain ⟨completed, completedBy⟩ := performPrimitive_completes performed
    cases completedBy with
    | scripted _ _ general' _ _ => cases general'.symm.trans device'
    | drawn _ general' _ _ _ => cases general'.symm.trans device'
    | reference d e _ device after _ reply =>
      cases after.symm.trans device'
      obtain ⟨_, _, _, _, issue', answer, next⟩ := (inStep d device).answers busy s.transport.draws
      cases issue.symm.trans issue'
      cases reply.symm.trans answer
      exact (show s'.params = s.params from completed.params) ▸ next

/-- Under the duties the transport completes the primitive of a busy block. -/
theorem performPrimitive_of_duties {s : State} {prim : Primitive} (duties : s.DutiesHeld)
    (completes : s.TransportCompletes) (issue : s.blk.primitive s.params = some prim) :
    ∃ res s', performPrimitive prim s = .completes res s' := by
  cases performed : performPrimitive prim s with
  | completes res s' => exact ⟨res, s', rfl⟩
  | never =>
    obtain ⟨_, _, _, answers⟩ := performPrimitive_never performed
    exact absurd (answers ▸ List.mem_cons_self) completes.answers
  | refused why =>
    obtain ⟨_, shared⟩ | ⟨_, _, d, device, noMeaning⟩ := performPrimitive_refused performed
    · cases duties.exclusive.symm.trans shared
    · obtain ⟨_, _, _, _, issue', answer, _⟩ :=
        (completes.device d device).answers (Block.busy_of_primitive issue) s.transport.draws
      cases issue.symm.trans issue'
      cases noMeaning.symm.trans answer

/-- Under the duties every step answers a next state: reset, wait, acceptance, or the operation in progress. -/
theorem step_of_duties {s : State} (duties : s.DutiesHeld) (completes : s.TransportCompletes) :
    ∃ t, step s = .next t := by
  cases asserted : s.rstAsserted with
  | true =>
    obtain ⟨_, _, rst⟩ := rstAsserted_iff.1 asserted
    exact ⟨_, step_asserted rst⟩
  | false =>
    by_cases idle : s.blk.state = .idle
    · obtain ⟨act, eq⟩ := step_idle asserted idle
      exact ⟨_, eq.trans (idleStep_quiet act duties.quiet)⟩
    · obtain ⟨prim, issue⟩ := s.blk.exists_primitive s.params idle
      have duties' : s.tick.DutiesHeld := ⟨duties.exclusive, duties.quiet⟩
      have completes' : s.tick.TransportCompletes := ⟨completes.answers, completes.device⟩
      obtain ⟨res, s', performed⟩ := performPrimitive_of_duties duties' completes' issue
      exact ⟨_, step_issues asserted issue performed rfl⟩

/-! ### Whole operations under the general transport (rule R163) -/

/-- The registers' course through a cycle: from the first registers, with these primitives completed one after another
with these results, to the last (rule R161). -/
inductive Block.Course (p : Params) : Block → List Primitive → List Byte → Block → Prop where
  | done (b : Block) : Course p b [] [] b
  | issue {b b' : Block} {prim : Primitive} {prims : List Primitive} {res : Byte} {results : List Byte}
      (prim_eq : b.primitive p = some prim) (rest : Course p (b.transition p res) prims results b') :
      Course p b (prim :: prims) (res :: results) b'

section Courses
variable {p : Params} {b b' b'' : Block} {prims prims' : List Primitive} {results results' : List Byte}

theorem Block.Course.append (first : b.Course p prims results b') (second : b'.Course p prims' results' b'') :
    b.Course p (prims ++ prims') (results ++ results') b'' := by
  induction first with
  | done _ => exact second
  | issue prim_eq _ ih => exact .issue prim_eq (ih second)

/-- A state whose step only passes on. -/
theorem Block.Course.pass {nxt : FsmState} {prim : Primitive} {res : Byte} (prim_eq : b.primitive p = some prim)
    (row : b.state.Passes nxt) (rest : { b with state := nxt }.Course p prims results b') :
    b.Course p (prim :: prims) (res :: results) b' :=
  .issue prim_eq (Block.transition_passes (p := p) (res := res) row ▸ rest)

/-- The last state of a course. -/
theorem Block.Course.last {prim : Primitive} {res : Byte} (prim_eq : b.primitive p = some prim)
    (writes : b.transition p res = b') : b.Course p [prim] [res] b' :=
  .issue prim_eq (writes ▸ .done _)

/-- Both cycles begin with a transaction addressed to the device (rule R7). -/
theorem Block.primitive_begins (hs : b.state = .wBegin ∨ b.state = .rBegin) :
    b.primitive p = some (.tBegin 0x48#7) := by
  rcases hs with hs | hs <;> simp only [Block.primitive, hs, Config.devAddr]

/-- A whole write cycle (rules R106, R153). -/
theorem Block.Course.writeCycle (hs : b.state = .wBegin) (x y z status : Byte) :
    b.Course p (writePrimitives p b.ch_r b.enc_r) [x, y, z, status] ({ b with state := .wEnd }.endWrite status) :=
  .pass (primitive_begins (.inl hs)) (hs ▸ .wBegin) <| .pass rfl .wSel <| .pass rfl .wData <| .last rfl rfl

/-- A read cycle up to the availability check (rules R107, R154). -/
theorem Block.Course.pollCycle (hs : b.state = .rBegin) (x y status q count : Byte) :
    b.Course p (pollPrimitives p b.ch_r) [x, y, status, q, count]
      ({ b with status_r := status, state := .rAvail }.checkAvailable p count) :=
  .pass (primitive_begins (.inr hs)) (hs ▸ .rBegin) <| .pass rfl .rSel <| .issue rfl <| .pass rfl .rReq <|
    .last rfl rfl

/-- A read cycle without a byte (rule R167). -/
theorem Block.Course.noByte (hs : b.state = .rBegin) (x y status q : Byte) :
    b.Course p (pollPrimitives p b.ch_r) [x, y, status, q, 0#8]
      ({ b with status_r := status, navail_r := 0#8 }.finish false errorSentinel .readUnavailable) := by
  have polled := pollCycle (p := p) hs x y status q 0#8
  rwa [Block.checkAvailable_zero] at polled

/-- A read cycle with a byte. -/
theorem Block.Course.readCycle {count : Byte} (hs : b.state = .rBegin) (available : count ≠ 0#8)
    (x y status q byte : Byte) :
    b.Course p (pollPrimitives p b.ch_r ++ [.tRead]) [x, y, status, q, count, byte]
      ({ b with state := .rRead, status_r := status, navail_r := count, rd_r := byte }.readDone p
        (some (Codec.decode byte))) := by
  have polled := pollCycle (p := p) hs x y status q count
  rw [Block.checkAvailable_some available] at polled
  exact polled.append (.last rfl rfl)

/-- The machine follows the course with the prepared answers of the general transport (rule R175). -/
theorem Block.Course.run_scripted (course : b.Course p prims results b') :
    ∀ {s : State}, s.blk = b → s.params = p → s.rst = [] → s.Answers results →
      run results.length s = .next { s with
        transport := s.transport.after results.length (issuesOf prims results)
        blk := b' } := by
  induction course with
  | done b =>
    rintro s rfl - - -
    simp [Transport.after, issuesOf]
  | @issue b b' prim prims res results prim_eq _ ih =>
    rintro s rfl rfl rst ⟨general, exclusive, later, prepared⟩
    have moved := step_scripted (rstAsserted_of_nil rst) (Block.busy_of_primitive prim_eq) prim_eq exclusive general
      prepared
    rw [List.length_cons, run_succ moved]
    refine (ih ?_ ?_ ?_ ?_).trans ?_
    · rfl
    · rfl
    · exact congrArg List.tail rst
    · exact ⟨general, exclusive, later, rfl⟩
    · simp [Transport.after, issuesOf, prepared, rst]

end Courses

/-- A whole operation: the acceptance of the offered word, and the course of its cycles with the prepared answers. -/
theorem State.Offers.run_course {s : State} {w : ReqWord} {prims : List Primitive} {results : List Byte} {b' : Block}
    (offers : s.Offers w) (answers : s.Answers results)
    (course : (s.blk.acceptWord w).Course s.params prims results b') :
    run (results.length + 1) s = .next { s with
      requests := s.requests.tail
      transport := s.transport.after results.length (issuesOf prims results)
      blk := b' } := by
  have accepted := step_accept (rstAsserted_of_nil offers.released) offers.ready.1 offers.ready.2
    (List.eq_cons_of_mem_head? offers.presented)
  have rst : s.rst.tail = s.rst := by rw [offers.released, List.tail_nil]
  rw [run_succ accepted, course.run_scripted (s := s.tick.accept _) rfl rfl (rst.trans offers.released)
    ⟨answers.general, answers.exclusive, answers.prepared⟩]
  simp [rst]

/-- The write cycle that an accepted WR or WRV begins. -/
theorem Block.Course.acceptedWrite {p : Params} (op : BitVec 3) (ch data : Byte) (b : Block) (x y z status : Byte) :
    { b.latch op ch data with enc_r := Codec.encode data, state := .wBegin }.Course p
      (writePrimitives p ch (Codec.encode data)) [x, y, z, status]
      ({ b.latch op ch data with enc_r := Codec.encode data, state := .wEnd }.endWrite status) :=
  writeCycle rfl x y z status

/-- An operation that ends with one of two error causes. -/
theorem Block.finish_ite (b : Block) (c : Prop) [Decidable c] (ok : Bool) (val : Byte) (err err' : ErrorCode) :
    b.finish ok val (if c then err else err') = { b with
      resp_ok := ok, resp_val := val, resp_err := if c then err.code else err'.code
      done := true, state := .idle } := by
  simp only [Block.finish, apply_ite ErrorCode.code]

section Operations
variable {p : Params} {ch : Byte} (valid : ch = 0x00#8 ∨ ch = 0x01#8) (data : Byte) (b : Block)
include valid

/-- The write cycle of an accepted WR, by its status (rule R155). -/
theorem Block.Course.wr (x y z status : Byte) :
    (b.acceptWord (encode (.wr data ch))).Course p (writePrimitives p ch (Codec.encode data)) [x, y, z, status]
      ({ b.latch 2#3 ch data with enc_r := Codec.encode data, status_r := status }.finish (decide (status = 0#8)) 0#8
        (if status = 0#8 then .ok else .busTransactionFailure)) := by
  rw [Block.acceptWord_wr valid]
  have cycle := acceptedWrite (p := p) 2#3 ch data b x y z status
  by_cases zero : status = 0#8
  · subst zero
    rwa [Block.endWrite_wr rfl] at cycle
  · rw [Block.endWrite_failed zero] at cycle
    rwa [decide_eq_false zero, if_neg zero]

/-- The write cycle of an accepted WRV that fails (rule R164). -/
theorem Block.Course.wrv_failed {status : Byte} (failed : status ≠ 0#8) (x y z : Byte) :
    (b.acceptWord (encode (.wrv data ch))).Course p (writePrimitives p ch (Codec.encode data)) [x, y, z, status]
      ({ b.latch 3#3 ch data with enc_r := Codec.encode data, status_r := status }.finish false 0#8
        .busTransactionFailure) := by
  rw [Block.acceptWord_wrv valid]
  have cycle := acceptedWrite (p := p) 3#3 ch data b x y z status
  rwa [Block.endWrite_failed failed] at cycle

/-- The write cycle of an accepted WRV up to its read cycle. -/
theorem Block.Course.wrv_turns (x y z : Byte) :
    (b.acceptWord (encode (.wrv data ch))).Course p (writePrimitives p ch (Codec.encode data)) [x, y, z, 0#8]
      { b.latch 3#3 ch data with
        enc_r := Codec.encode data, status_r := 0#8, vfy_r := true, state := .rBegin } := by
  rw [Block.acceptWord_wrv valid]
  have cycle := acceptedWrite (p := p) 3#3 ch data b x y z 0#8
  rwa [Block.endWrite_wrv rfl] at cycle

/-- The course of an accepted RD is that of its read cycle (rule R157). -/
theorem Block.Course.rd {prims : List Primitive} {results : List Byte} {b' : Block}
    (cycle : { b.latch 4#3 ch data with state := .rBegin }.Course p prims results b') :
    (b.acceptWord (encode (.rd data ch))).Course p prims results b' :=
  Block.acceptWord_rd valid data b ▸ cycle

end Operations

/-! ### The obligations of 41_transport.md -/

/-- Settles O46: the device in step gives the primitive a meaning, so the step goes on, and what it goes on to still
meets the duties. -/
theorem noStopUnderTheDuties : Obligations.NoStopUnderTheDuties := by
  intro s duties completes
  obtain ⟨t, h⟩ := step_of_duties duties completes
  obtain ⟨exclusive, strayDone, answers⟩ := step_keepsDuties h
  exact ⟨t, h, ⟨exclusive.trans duties.exclusive, strayDone.trans duties.quiet⟩,
    fun never => completes.answers (answers.subset never), step_keepsInStep completes.device h⟩

/-- Settles O34: a reset goes on, IDLE refuses a stray completion only, and any other state what the transport
refuses. -/
theorem refusedOnlyForTheSurroundings : Obligations.RefusedOnlyForTheSurroundings := by
  intro s why h
  cases asserted : s.rstAsserted with
  | true =>
    obtain ⟨_, _, rst⟩ := rstAsserted_iff.1 asserted
    rw [step_asserted rst] at h
    cases h
  | false =>
    refine ⟨rfl, ?_⟩
    by_cases idle : s.blk.state = .idle
    · obtain ⟨act, eq⟩ := step_idle asserted idle
      obtain ⟨why_eq, stray⟩ := idleStep_refused (eq.symm.trans h)
      exact .inl ⟨why_eq, idle, stray⟩
    · obtain ⟨prim, issue, refused⟩ := sequencer_refused ((step_busy asserted idle).symm.trans h)
      obtain ⟨why_eq, shared⟩ | ⟨why_eq, _, d, device, noMeaning⟩ := performPrimitive_refused refused
      · exact .inr (.inl ⟨why_eq, idle, shared⟩)
      · exact .inr (.inr ⟨why_eq, idle, d, prim, device, issue, noMeaning⟩)

/-- Settles O50: the acceptance and the course of the write cycle, by the status. -/
theorem wrOperation : Obligations.WrOperation := by
  intro s data ch a b c status valid offers answers
  have course := Block.Course.wr (p := s.params) valid data s.blk a b c status
  rw [Block.finish_ite] at course
  exact offers.run_course answers course

/-- Settles O51, by the count. -/
theorem rdOperation : Obligations.RdOperation := by
  intro s data ch a b status q count byte valid offers
  refine ⟨?_, fun available answers => ?_⟩
  · rintro rfl answers
    exact offers.run_course answers (.rd valid data s.blk (.noByte rfl a b status q))
  · have course := Block.Course.rd valid data s.blk (.readCycle (p := s.params) rfl available a b status q byte)
    rw [Block.readDone_plain rfl] at course
    exact offers.run_course answers course

/-- Settles O52, by the status of the write and the count of the read. -/
theorem wrvOperation : Obligations.WrvOperation := by
  intro s data ch a b c status a' b' status' q count byte valid offers
  refine ⟨fun failed answers => ?_, ?_, ?_⟩
  · exact offers.run_course answers (.wrv_failed valid data s.blk failed a b c)
  · rintro rfl rfl answers
    exact offers.run_course answers
      ((Block.Course.wrv_turns valid data s.blk a b c).append (.noByte rfl a' b' status' q))
  · rintro rfl available answers
    have course := (Block.Course.wrv_turns (p := s.params) valid data s.blk a b c).append
      (.readCycle rfl available a' b' status' q byte)
    rw [Block.readDone_verify rfl, Block.verifyTarget_eq, Block.finish_ite] at course
    exact offers.run_course answers course

/-- Settles O59: the read cycle fetches the byte the write cycle left in the register, and the device corrupts it. -/
theorem corruptedReadBack : Obligations.CorruptedReadBack := by
  intro s d data ch valid offers exclusive device alone clear
  have quiet : d.otherMaster s.params = d := RefDevice.otherMaster_none alone
  have written := (offers.leadsTo exclusive device).wrvWrites offers.ready.1 valid quiet
  obtain ⟨t, ht, at_t⟩ := written.readCycle_certain rfl (RefDevice.otherMaster_none alone) clear
    (memRead_memWrite_same _ _ _)
  obtain ⟨idle, done, val, same, differs⟩ := at_t.verified rfl
  have latched : t.blk.data_r = data := by
    rw [at_t.blk, Block.readDone_verify rfl]
    rfl
  rw [Block.verifyTarget_eq, latched] at same differs
  exact ⟨t, _, ht, idle, done, val, at_t.device, memRead_memWrite_same _ _ _, same, differs⟩

/-- Settles O18: the channel is valid, so the acceptance encodes the data and begins the write cycle. -/
theorem wrBegins : Obligations.WrBegins :=
  fun s data _ ready valid => requestStep_accepts ready (s.blk.acceptWrite_valid data _ (validChannel_of valid))

/-- Settles O19, as for WR. -/
theorem wrvBegins : Obligations.WrvBegins :=
  fun s data _ ready valid => requestStep_accepts ready (s.blk.acceptWrite_valid data _ (validChannel_of valid))

/-- Settles O20: the channel is valid, so the acceptance begins the read cycle. -/
theorem rdBegins : Obligations.RdBegins :=
  fun s data _ ready valid => requestStep_accepts ready (s.blk.acceptRead_valid data (validChannel_of valid))

/-- Settles O21: the acceptance of each of the three ends the operation. -/
theorem invalidChannelCompletes : Obligations.InvalidChannelCompletes := by
  intro s data ch ready not0 not1
  have invalid : validChannel ch = false := validChannel_eq_false not0 not1
  exact ⟨requestStep_accepts ready (s.blk.acceptWrite_invalid data _ invalid),
    requestStep_accepts ready (s.blk.acceptWrite_invalid data _ invalid),
    requestStep_accepts ready (s.blk.acceptRead_invalid data invalid)⟩

/-- Settles O25: six rows of rule R161 pass on, and R_END keeps its status. -/
theorem passingSteps : Obligations.PassingSteps := by
  intro s s' res released
  have pass {nxt : FsmState} {prim : Primitive} (issue : s.blk.primitive s.params = some prim)
      (row : s.blk.state.Passes nxt) (performed : performPrimitive prim s.tick = .completes res s') :
      step s = .next { s' with blk := { s.blk with state := nxt } } :=
    step_issues released issue performed (Block.transition_passes row)
  exact ⟨fun hs => pass (Block.primitive_begins (.inl hs)) (hs ▸ .wBegin),
    fun hs => pass (by simp only [Block.primitive, hs]) (hs ▸ .wSel),
    fun hs => pass (by simp only [Block.primitive, hs]) (hs ▸ .wData),
    fun hs => pass (Block.primitive_begins (.inr hs)) (hs ▸ .rBegin),
    fun hs => pass (by simp only [Block.primitive, hs]) (hs ▸ .rSel),
    fun hs performed =>
      step_issues released (by simp only [Block.primitive, hs]) performed (Block.transition_rEnd hs),
    fun hs => pass (by simp only [Block.primitive, hs, Config.devAddr, Config.readCount]) (hs ▸ .rReq)⟩

/-- Settles O26, by the status and the operation. -/
theorem writeEndStep : Obligations.WriteEndStep := by
  intro s s' status released hs performed
  have ended : step s = .next { s' with blk := s.blk.endWrite status } :=
    step_issues released (by simp only [Block.primitive, hs]) performed (Block.transition_wEnd hs)
  rw [ended]
  refine ⟨fun failed => ?_, ?_, ?_⟩
  · rw [Block.endWrite_failed failed]; rfl
  · rintro rfl wr
    rw [Block.endWrite_wr wr]; rfl
  · rintro rfl notWr
    rw [Block.endWrite_turns notWr]

/-- Settles O27, by the count. -/
theorem availabilityStep : Obligations.AvailabilityStep := by
  intro s s' count released hs performed
  have counted : step s = .next { s' with blk := s.blk.checkAvailable s.params count } :=
    step_issues released (by simp only [Block.primitive, hs]) performed (Block.transition_rAvail hs)
  rw [counted]
  refine ⟨?_, fun available => ?_⟩
  · rintro rfl
    rw [Block.checkAvailable_zero]; rfl
  · rw [Block.checkAvailable_some available]

/-- Settles O31: the prepared answer, or the free value of the draw counter. -/
theorem transportAnswersAreFree : Obligations.TransportAnswersAreFree :=
  fun _ _ general exclusive => ⟨fun _ _ prepared => performPrimitive_scripted exclusive general prepared,
    fun none => performPrimitive_drawn exclusive general none⟩

/-- Settles O32: the state issues a primitive, and the transport never completes it. -/
theorem stuckWithoutCompletion : Obligations.StuckWithoutCompletion := by
  intro s later released busy general exclusive answers
  obtain ⟨prim, issue⟩ := s.blk.exists_primitive s.params busy
  rw [step_busy released busy]
  exact sequencer_never (s := s.tick) issue (performPrimitive_stuck exclusive general answers)

/-- Settles O35: IDLE looks at the stray completion first, and the transport at exclusive use. -/
theorem brokenDutyRefused : Obligations.BrokenDutyRefused := by
  intro s released
  refine ⟨fun idle stray => ?_, fun busy shared => ?_⟩
  · obtain ⟨act, eq⟩ := step_idle released idle
    exact eq.trans (idleStep_stray act stray)
  · obtain ⟨prim, issue⟩ := s.blk.exists_primitive s.params busy
    rw [step_busy released busy]
    exact sequencer_refuses (s := s.tick) issue (performPrimitive_shared shared)

end Sys2Proof.Machine

namespace Sys2Proof.Machine

/-! ### What a step can be stuck on (60_exceptions.md rules R207, R219) -/

/-- IDLE waits for no primitive, so nothing holds it up. -/
theorem idleStep_ne_fault (act : State → State) (s : State) (f : Fault) : idleStep act s ≠ .fault f := by
  intro h
  cases stray : s.transport.strayDone with
  | false => rw [idleStep_quiet act stray] at h; cases h
  | true => rw [idleStep_stray act stray] at h; cases h

/-- The sequencer is stuck only on a primitive that the transport never completes (rule R177). -/
theorem sequencer_fault {s : State} {f : Fault} (h : sequencer s = .fault f) :
    ∃ prim, s.blk.primitive s.params = some prim ∧ performPrimitive prim s = .never := by
  cases issue : s.blk.primitive s.params with
  | none => simp only [sequencer, issue] at h; cases h
  | some prim =>
    refine ⟨prim, rfl, ?_⟩
    cases performed : performPrimitive prim s with
    | completes _ _ => rw [sequencer_completes issue performed] at h; cases h
    | never => rfl
    | refused _ => rw [sequencer_refuses issue performed] at h; cases h

/-! ### The acceptance of an illegal word (30_encoding.md rule R96, 41_transport.md rule R158) -/

/-- Rule R96: a word is illegal for its reserved field or for its operation code. -/
theorem exists_decode_illegal {w : ReqWord} (bad : w.extractLsb' 3 5 ≠ 0#5 ∨ 5 ≤ (w.extractLsb' 0 3).toNat) :
    ∃ why, decode w = .illegal why := by
  by_cases zero : w.extractLsb' 3 5 = 0#5
  · exact ⟨_, decode_reservedOp zero (bad.resolve_left (not_not_intro zero))⟩
  · exact ⟨_, decode_reservedField zero⟩

theorem Block.acceptWord_illegal {w : ReqWord} {why : Reject} (b : Block) (illegal : decode w = .illegal why) :
    b.acceptWord w = b.acceptIllegal (Request.ofWord w) := by
  simp only [Block.acceptWord, illegal]

/-! ### The obligations of 60_exceptions.md -/

/-- Settles O33: a reset goes on, IDLE is never stuck, and any other state only on a primitive that is never
completed. -/
theorem stuckOnlyOnTransport : Obligations.StuckOnlyOnTransport := by
  intro s f h
  cases asserted : s.rstAsserted with
  | true =>
    obtain ⟨_, _, rst⟩ := rstAsserted_iff.1 asserted
    rw [step_asserted rst] at h
    cases h
  | false =>
    by_cases idle : s.blk.state = .idle
    · obtain ⟨act, eq⟩ := step_idle asserted idle
      exact absurd (eq.symm.trans h) (idleStep_ne_fault act s.tick f)
    · obtain ⟨_, _, never⟩ := sequencer_fault ((step_busy asserted idle).symm.trans h)
      obtain ⟨_, general, answers⟩ := performPrimitive_never never
      exact ⟨rfl, idle, general, answers⟩

/-- Settles O22: the word decodes to ILLEGAL, and its acceptance latches its fields and ends the operation. -/
theorem illegalRequestCompletes : Obligations.IllegalRequestCompletes := by
  intro s w rest released ⟨idle, quiet⟩ requests bad
  obtain ⟨_, illegal⟩ := exists_decode_illegal bad
  rw [step_accept released idle quiet requests, State.accept, State.tick_blk, Block.acceptWord_illegal s.blk illegal,
    State.tick_requests, requests]
  rfl

end Sys2Proof.Machine

namespace Sys2Proof.Machine

open Sys2Proof.Config (Params)

/-! ### What a reset does outside the block (70_reset_and_hazards.md rules R230, R231 and R233) -/

theorem State.tValid_asserted {s : State} (asserted : s.rstAsserted = true) : s.tValid = false := by
  simp [State.tValid, asserted]

theorem State.carryOut_rst (s : State) : s.carryOut.rst = s.rst := by
  rcases s.carryOut_cases with same | ⟨_, _, completes⟩
  · rw [same]
  · exact (performPrimitive_completes completes).1.rst

@[simp] theorem resetEvent_device (carriedOut : Bool) (s : State) :
    (resetEvent carriedOut s).device = (s.abandon carriedOut).device := rfl

section Abandon
variable {s : State}

theorem State.abandon_idle (idle : s.blk.state = .idle) (carriedOut : Bool) : s.abandon carriedOut = s :=
  if_pos idle

theorem State.abandon_dropped (busy : s.blk.state ≠ .idle) : s.abandon false = s.forgetAddressed :=
  if_neg busy

theorem State.abandon_carriedOut (busy : s.blk.state ≠ .idle) : s.abandon true = s.carryOut.forgetAddressed :=
  if_neg busy

theorem State.abandon_rst (s : State) (carriedOut : Bool) : (s.abandon carriedOut).rst = s.rst := by
  by_cases idle : s.blk.state = .idle
  · rw [abandon_idle idle]
  · cases carriedOut with
    | false => rw [abandon_dropped idle, forgetAddressed_rst]
    | true => rw [abandon_carriedOut idle, forgetAddressed_rst, carryOut_rst]

/-- Only a primitive that is carried out moves the transport on. -/
theorem State.abandon_transport {carriedOut : Bool} (unused : s.blk.state = .idle ∨ carriedOut = false) :
    (s.abandon carriedOut).transport = s.transport := by
  by_cases idle : s.blk.state = .idle
  · rw [abandon_idle idle]
  · rw [unused.resolve_left idle, abandon_dropped idle, forgetAddressed_transport]

theorem State.forgetAddressed_device {d : RefDevice} (device : s.device = some d) :
    s.forgetAddressed.device = some (d.forget (selectByte s.params s.blk.ch_r)) := by
  simp only [State.forgetAddressed, device, Option.map_some]

/-- The device after the primitive on the port was carried out or not: as before, or as its answer to it leaves it. -/
theorem State.carryOut_device {d : RefDevice} (device : s.device = some d) :
    ∃ d', s.carryOut.device = some d' ∧
      (d' = d ∨ ∃ prim n res drew, s.blk.primitive s.params = some prim ∧
        d.answer s.params n prim = .answers res d' drew) := by
  cases issue : s.blk.primitive s.params with
  | none => exact ⟨d, by simp only [State.carryOut, issue, device], .inl rfl⟩
  | some prim =>
    cases performed : performPrimitive prim s with
    | never | refused _ => exact ⟨d, by simp only [State.carryOut, issue, performed, device], .inl rfl⟩
    | completes res s' =>
      cases (performPrimitive_completes performed).2 with
      | scripted _ general _ _ _ | drawn general _ _ _ _ => cases general.symm.trans device
      | reference e d' drew before after _ reply =>
        cases before.symm.trans device
        exact ⟨d', by simp only [State.carryOut, issue, performed, after], .inr ⟨prim, _, res, drew, rfl, reply⟩⟩

end Abandon

section Others
variable {p : Params} {b : Block} {d d' : RefDevice} {n : Nat} {prim : Primitive} {res : Byte} {drew : Bool}

/-- In step with the block, the device answers its primitive without a change to any register but the addressed one,
unless the primitive is a T_BEGIN and another master writes before it (rule R82). -/
theorem RefDevice.InStep.answer_others (inStep : d.InStep p b)
    (alone : d.otherWrites = [] ∨ (b.state ≠ .wBegin ∧ b.state ≠ .rBegin)) (issue : b.primitive p = some prim)
    (reply : d.answer p n prim = .answers res d' drew) {r : Byte} (other : r ≠ selectByte p b.ch_r) :
    memRead d'.mem r = memRead d.mem r := by
  unfold RefDevice.InStep at inStep
  unfold Block.primitive at issue
  cases hs : b.state <;> simp only [hs] at inStep issue alone <;> cases issue
  case wBegin | rBegin =>
    rw [answer_tBegin, otherMaster_none (by simpa using alone)] at reply
    cases reply; rfl
  case wSel | wData | rSel => rw [answer_tWrite inStep] at reply; cases reply; rfl
  case wEnd =>
    rw [answer_endWrite inStep (isRegister_selectByte _ _)] at reply
    cases reply
    exact memRead_memWrite_other _ _ _ _ other
  case rEnd => rw [answer_endPointer inStep] at reply; cases reply; rfl
  case rReq =>
    obtain ⟨_, _, fetches, answer⟩ := answer_request p n (d := d) (inStep ▸ isRegister_selectByte _ _)
    cases reply.symm.trans answer
    exact fetches.others (inStep ▸ other)
  case rAvail =>
    by_cases room : d.rx.length < 256
    · rw [answer_available room] at reply; cases reply; rfl
    · rw [answer_available_free room] at reply; cases reply; rfl
  case rRead =>
    obtain ⟨_, _, unread⟩ := List.exists_cons_of_ne_nil inStep
    rw [answer_tRead unread] at reply; cases reply; rfl

end Others

/-! ### How many steps an operation has before it (70_reset_and_hazards.md section 3) -/

/-- The most steps an operation takes from a control state to its end: a WRV from W_BEGIN takes 10 (rule R163). -/
def FsmState.stepsLeft : FsmState → Nat
  | .idle => 0
  | .rRead => 1
  | .rAvail => 2
  | .rReq => 3
  | .rEnd => 4
  | .rSel => 5
  | .rBegin => 6
  | .wEnd => 7
  | .wData => 8
  | .wSel => 9
  | .wBegin => 10

theorem FsmState.stepsLeft_le (st : FsmState) : st.stepsLeft ≤ 10 := by
  cases st <;> decide

theorem FsmState.stepsLeft_pos {st : FsmState} (busy : st ≠ .idle) : 0 < st.stepsLeft := by
  cases st with
  | idle => exact absurd rfl busy
  | _ => exact Nat.succ_pos _

theorem FsmState.Passes.progress {a a' : FsmState} (h : a.Passes a') :
    a'.stepsLeft < a.stepsLeft ∧ a' ≠ .idle := by
  cases h <;> decide

/-- Each row of rule R161 leaves fewer steps to take, and one that reaches IDLE ends the operation with a response. -/
theorem Block.Row.progress {p : Params} {res : Byte} {b b' : Block} (row : Block.Row p res b b') :
    b'.state.stepsLeft < b.state.stepsLeft ∧ (b'.state = .idle → b'.done = true) := by
  cases row with
  | pass nxt passes eq =>
    obtain ⟨fewer, busy⟩ := passes.progress
    subst eq
    exact ⟨fewer, fun idle => absurd idle busy⟩
  | pointer state eq | turned state _ _ eq | available state _ eq | writeFailed state _ eq | written state _ _ eq
  | noByte state _ eq | read state _ eq | verified state _ _ eq | mismatch state _ _ eq =>
    simp [eq, state, FsmState.stepsLeft]

/-- No reset is to come, the duties are held, and the transport completes what it is given. -/
structure State.Undisturbed (s : State) : Prop where
  released : s.rst = []
  duties : s.DutiesHeld
  completes : s.TransportCompletes

/-- An undisturbed operation makes progress with every step. -/
theorem State.Undisturbed.progress {s : State} (h : s.Undisturbed) (busy : s.blk.state ≠ .idle) :
    ∃ t, step s = .next t ∧ t.Undisturbed ∧ t.blk.state.stepsLeft < s.blk.state.stepsLeft ∧
      (t.blk.state = .idle → t.blk.done = true) := by
  obtain ⟨t, stepped, duties, completes⟩ := noStopUnderTheDuties s h.duties h.completes
  cases step_next stepped with
  | reset _ _ rst _ => cases h.released.symm.trans rst
  | wait _ idle _ _ _ | accept _ _ _ idle _ _ _ => exact absurd idle busy
  | move _ res s' _ _ _ performed eq =>
    have released : t.rst = [] := by
      rw [eq]
      exact (performPrimitive_completes performed).1.rst.trans (by rw [State.tick_rst, h.released, List.tail_nil])
    exact ⟨t, stepped, ⟨released, duties, completes⟩, eq ▸ (s.blk.transition_row s.params res busy).progress⟩

/-- An undisturbed operation with at most `n` steps left ends within `n` steps. -/
theorem State.Undisturbed.ends (n : Nat) : ∀ {s : State}, s.Undisturbed → s.blk.state ≠ .idle →
    s.blk.state.stepsLeft ≤ n → ∃ k t, k ≤ n ∧ run k s = .next t ∧ t.blk.state = .idle ∧ t.blk.done = true := by
  induction n with
  | zero => exact fun _ busy left => absurd (FsmState.stepsLeft_pos busy) (Nat.not_lt.2 left)
  | succ n ih =>
    intro s h busy left
    obtain ⟨t, stepped, undisturbed, fewer, done⟩ := h.progress busy
    by_cases idle : t.blk.state = .idle
    · exact ⟨1, t, Nat.le_add_left 1 n, run_succ stepped, idle, done idle⟩
    · obtain ⟨k, u, bound, ran, ended⟩ := ih undisturbed idle (by omega)
      exact ⟨k + 1, u, Nat.succ_le_succ bound, (run_succ stepped).trans ran, ended⟩

/-! ### The obligations of 70_reset_and_hazards.md -/

/-- Settles O38: the reset forgets the addressed register last, after a primitive that is carried out. -/
theorem resetAndTheDevice : Obligations.ResetAndTheDevice := by
  intro s t carriedOut rest rst h
  cases (step_asserted rst).symm.trans h
  refine ⟨fun idle => ?_, ?_, ?_⟩
  · rw [resetEvent_device, State.abandon_idle (s := s.tick) idle, State.tick_device]
  · rintro busy rfl d device
    rw [resetEvent_device, State.abandon_dropped (s := s.tick) busy]
    exact ⟨_, State.forgetAddressed_device device, memRead_memForget_same _ _,
      fun r other => memRead_memForget_other _ _ r other, rfl, rfl⟩
  · rintro busy rfl d device
    obtain ⟨e, after, effect⟩ := State.carryOut_device (s := s.tick) device
    have forgets := State.forgetAddressed_device after
    rw [s.tick.carryOut_blk, s.tick.carryOut_keepsSite.params] at forgets
    rw [resetEvent_device, State.abandon_carriedOut (s := s.tick) busy]
    refine ⟨_, forgets, memRead_memForget_same _ _, fun inStep alone r other => ?_⟩
    have kept : memRead e.mem r = memRead d.mem r := by
      obtain rfl | ⟨_, _, _, _, issue, reply⟩ := effect
      · rfl
      · exact inStep.answer_others alone issue reply other
    exact (memRead_memForget_other _ _ r other).trans kept

/-- Settles O47: each step of the operation leaves fewer to take, and no control state has more than ten left. -/
theorem operationEndsWithinTenSteps : Obligations.OperationEndsWithinTenSteps :=
  fun s released duties completes busy =>
    State.Undisturbed.ends 10 ⟨released, duties, completes⟩ busy s.blk.state.stepsLeft_le

/-- Settles O37: the step is the reset event, whose surroundings are those the abandoned operation leaves. -/
theorem resetEventClearsBlock : Obligations.ResetEventClearsBlock := by
  intro s carriedOut rest rst
  have asserted : s.rstAsserted = true := rstAsserted_iff.2 ⟨_, _, rst⟩
  refine ⟨State.reqReady_asserted asserted, State.tValid_asserted asserted, _, step_asserted rst, rfl,
    resetEvent_requests carriedOut s.tick, ?_, (s.tick.abandon_keepsSite carriedOut).params,
    State.abandon_transport (s := s.tick)⟩
  calc (resetEvent carriedOut s.tick).rst = s.tick.rst := s.tick.abandon_rst carriedOut
    _ = rest := by rw [State.tick_rst, rst, List.tail_cons]

end Sys2Proof.Machine

namespace Sys2Proof.Machine

/-! ### A RegisterByte from its fields, and `encode` after `decode` (40_codec.md rules R120, R124, R137) -/

/-- The sign field weighs 128 and the magnitude fills the rest (30_encoding.md rule R100). -/
theorem Codec.toNat_eq_fields (b : Byte) :
    b.toNat = (if Codec.signOf b then 128 else 0) + Codec.magnitudeOf b := by
  have width := b.isLt
  rw [Codec.magnitudeOf, BitVec.extractLsb'_toNat, Nat.shiftRight_zero, Codec.signOf, BitVec.getLsbD,
    Nat.testBit_eq_decide_div_mod_eq]
  simp only [decide_eq_true_eq]
  split <;> omega

/-- Rule R137: every byte but the negative zero comes back. Without the sign bit such a byte has a magnitude of 1 or
more, so it decodes to a negative Command and its sign is not lost. -/
theorem Codec.encode_decode {b : Byte} (ne : b ≠ 0x00#8) : Codec.encode (Codec.decode b) = b := by
  have positive : 0 < b.toNat := Nat.pos_of_ne_zero fun zero => ne (BitVec.eq_of_toNat_eq zero)
  have logical := (Codec.sint8_decode_range b).1
  have fields := Codec.toNat_eq_fields b
  apply BitVec.eq_of_toNat_eq
  rw [Codec.toNat_encode, Codec.saturated_of_logical logical, Codec.sint8_decode, Codec.signBit]
  cases sign : Codec.signOf b with
  | true =>
    rw [sign, if_pos rfl] at fields
    rw [if_pos rfl, if_pos (by omega)]
    omega
  | false =>
    rw [sign, if_neg Bool.false_ne_true] at fields
    rw [if_neg Bool.false_ne_true, if_neg (by omega)]
    omega

/-- Rule R137: the negative zero decodes to 0, which encodes with the sign bit. -/
theorem Codec.encode_decode_negZero : Codec.encode (Codec.decode 0x00#8) = 0x80#8 := by decide

/-! ### Collisions and images (40_codec.md rules R136, R138) -/

/-- The only other byte that decodes as the negative zero is zero itself. -/
theorem Codec.eq_zero_of_decode_eq_negZero {b : Byte} (ne : b ≠ 0x00#8)
    (same : Codec.decode b = Codec.decode 0x00#8) : b = 0x80#8 :=
  calc b = Codec.encode (Codec.decode b) := (Codec.encode_decode ne).symm
    _ = Codec.encode (Codec.decode 0x00#8) := congrArg Codec.encode same
    _ = 0x80#8 := Codec.encode_decode_negZero

/-- Apart from the negative zero, `decode` is injective, since `encode` undoes it. -/
theorem Codec.decode_injective_of_ne {b b' : Byte} (ne : b ≠ 0x00#8) (ne' : b' ≠ 0x00#8)
    (same : Codec.decode b = Codec.decode b') : b = b' := by
  rw [← Codec.encode_decode ne, same, Codec.encode_decode ne']

theorem Codec.sat_minus128 : Codec.sat 0x80#8 = 0x81#8 := if_pos rfl

theorem Codec.sat_of_ne {c : Byte} (ne : c ≠ 0x80#8) : Codec.sat c = c := if_neg ne

/-- Commands that encode alike saturate alike, since `decode` gives the saturated Command back. -/
theorem Codec.sat_eq_of_encode_eq {c c' : Byte} (same : Codec.encode c = Codec.encode c') :
    Codec.sat c = Codec.sat c' := by
  rw [← Codec.decode_encode, same, Codec.decode_encode]

/-- The negative zero is no encoded byte: its Command would be 0, and 0 encodes as `0x80`. -/
theorem Codec.encode_ne_negZero (c : Byte) : Codec.encode c ≠ 0x00#8 := by
  intro negZero
  have back : Codec.encode (Codec.decode (Codec.encode c)) = Codec.encode c := by
    rw [Codec.decode_encode, Codec.encode_sat]
  rw [negZero, Codec.encode_decode_negZero] at back
  exact absurd back (by decide)

/-- Rule R136: the image of `decode`. -/
theorem Codec.exists_decode_eq_iff (c : Byte) : (∃ b, Codec.decode b = c) ↔ c ≠ 0x80#8 := by
  constructor
  · rintro ⟨b, rfl⟩
    exact Codec.decode_ne_minus128 b
  · exact fun ne => ⟨Codec.encode c, (Codec.decode_encode c).trans (Codec.sat_of_ne ne)⟩

/-- Rule R138: the image of `encode`. -/
theorem Codec.exists_encode_eq_iff (b : Byte) : (∃ c, Codec.encode c = b) ↔ b ≠ 0x00#8 := by
  constructor
  · rintro ⟨c, rfl⟩
    exact Codec.encode_ne_negZero c
  · exact fun ne => ⟨Codec.decode b, Codec.encode_decode ne⟩

/-- Rule R136: `decode`'s only collision. -/
theorem Codec.decode_collision {b b' : Byte} (ne : b ≠ b') (same : Codec.decode b = Codec.decode b') :
    (b = 0x00#8 ∧ b' = 0x80#8) ∨ (b = 0x80#8 ∧ b' = 0x00#8) := by
  by_cases zero : b = 0x00#8
  · subst zero
    exact .inl ⟨rfl, Codec.eq_zero_of_decode_eq_negZero ne.symm same.symm⟩
  · by_cases zero' : b' = 0x00#8
    · subst zero'
      exact .inr ⟨Codec.eq_zero_of_decode_eq_negZero ne same, rfl⟩
    · exact absurd (Codec.decode_injective_of_ne zero zero' same) ne

/-- Rule R138: `encode`'s only collision, which is the one of `sat`. -/
theorem Codec.encode_collision {c c' : Byte} (ne : c ≠ c') (same : Codec.encode c = Codec.encode c') :
    (c = 0x80#8 ∧ c' = 0x81#8) ∨ (c = 0x81#8 ∧ c' = 0x80#8) := by
  have sats := Codec.sat_eq_of_encode_eq same
  by_cases minus128 : c = 0x80#8
  · subst minus128
    rw [Codec.sat_minus128, Codec.sat_of_ne ne.symm] at sats
    exact .inl ⟨rfl, sats.symm⟩
  · by_cases minus128' : c' = 0x80#8
    · subst minus128'
      rw [Codec.sat_minus128, Codec.sat_of_ne ne] at sats
      exact .inr ⟨sats, rfl⟩
    · rw [Codec.sat_of_ne minus128, Codec.sat_of_ne minus128'] at sats
      exact absurd sats ne

/-! ### The remaining obligations of 40_codec.md -/

/-- Settles O6: `encode` undoes `decode` but for the negative zero, and `decode` undoes `encode` but for -128, so these
two bytes make the only collisions and are the only ones without a preimage. -/
theorem codecCollisionsAndImages : Obligations.CodecCollisionsAndImages :=
  ⟨by decide, fun _ _ => Codec.decode_collision, Codec.exists_decode_eq_iff, fun _ _ => Codec.encode_collision,
    Codec.exists_encode_eq_iff⟩

/-- Settles O3: a Command comes back saturated. -/
theorem decodeAfterEncode : Obligations.DecodeAfterEncode := Codec.decode_encode

/-- Settles O5: the negative zero alone does not come back. -/
theorem encodeAfterDecode : Obligations.EncodeAfterDecode :=
  ⟨fun _ => Codec.encode_decode, Codec.encode_decode_negZero⟩

/-- Settles O9: the masked byte is the magnitude field, which holds the absolute value of the saturated Command. -/
theorem magnitudeBound : Obligations.MagnitudeBound := by
  intro c
  have absolute : (Codec.saturated c).natAbs = if c = 0x80#8 then 127 else (sint8 c).natAbs := by
    rw [← Codec.sint8_sat]
    by_cases minus128 : c = 0x80#8
    · rw [minus128, Codec.sat_minus128, if_pos rfl]
      decide
    · rw [Codec.sat_of_ne minus128, if_neg minus128]
  rw [Codec.toNat_and_magnitudeMask]
  exact ⟨Codec.magnitudeOf_le _, (Codec.fields_encode c).2.trans absolute⟩

end Sys2Proof.Machine
